-- ==== Sys2Proof/Config.lean ====
section
/-! DEFINITION. Sys2Proof/Config.lean: the fixed dimensions of the block (00_scope.md R5) and the two values
the spec leaves open: the registers before the first clock edge, and what the environment drives at an
edge for which the model has been given no input. -/

namespace Sys2Proof.Config

/-- `NSYM` of R5: entries of the alphabet. -/
abbrev nsym : Nat := 65

/-- `NDATA` of R5: data symbols, at positions 0 to 63. -/
abbrev ndata : Nat := 64

/-- `PADPOS` of R5: the position of the padding symbol. -/
abbrev padpos : Nat := 64

/-- `GROUP` of R5: symbols of one Symbol Group. -/
abbrev group : Nat := 4

/-- `OUTMAX` of R5: most bytes of one Decoded Chunk. -/
abbrev outmax : Nat := 3

/-- `SYMW` of R5: bits of a symbol code. -/
abbrev symw : Nat := 8

/-- `POSW` of R5: bits of a position. -/
abbrev posw : Nat := 7

/-- `VALW` of R5: bits a data symbol contributes. -/
abbrev valw : Nat := 6

/-- `WORDW` of R5: bits of the reconstructed value. -/
abbrev wordw : Nat := 24

/-- `LENW` of R5: bits of `OUTLEN`. -/
abbrev lenw : Nat := 2

/-- `ROMAW` of R5: bits of a ROM address. -/
abbrev romaw : Nat := 7

/-- `LATENCY` of R5: edges from sampling a group to its result. -/
abbrev latency : Nat := 1

/-- `POWERUP_STATE` of R5 and R31, as an output record (R68): the 28 register bits before edge 0. No rule
constrains it, so it has no body (log entry 6). -/
opaque powerUpState : BitVec 28

/-- What the environment drives at edge `k` when the model has been given no input for that edge: the
34-bit command word of R65. The environment may present any values at any edge (R9, point 8), so it has
no body (log entry 2). -/
opaque freeInput : Nat → BitVec 34

end Sys2Proof.Config
end

