-- ==== Sys2Proof/Word.lean ====
section
/-! DEFINITION. Sys2Proof/Word.lean: the bit widths of the spec and the two word formats of its
machine-readable table (30_encoding.md R64 to R69). -/

namespace Sys2Proof

/-- An 8-bit symbol code or output byte (R5 `SYMW`, R20). -/
abbrev Byte := BitVec 8

/-- The 6 bits one symbol contributes to the value (R5 `VALW`, R63). -/
abbrev SixBit := BitVec 6

/-- The 24-bit reconstructed value `V` (R66). -/
abbrev ValueWord := BitVec 24

/-- A position of the alphabet, which is also a ROM address: 0 to 64, no other address is representable
(R62, R72; 93_implementation_defined.md U11). -/
abbrev Position := Fin 65

/-- The group word `G` (R64): the four symbol ports as one 32-bit number. -/
abbrev GroupWord := BitVec 32

/-- The command word `CW` (R65): the inputs of one edge as one 34-bit number. -/
abbrev CommandWord := BitVec 34

/-- The output record `OR` (R68): the six registers as one 28-bit number. -/
abbrev OutputRecord := BitVec 28

/-- One input of the block, in one of the two formats of the table (R69). -/
inductive InputWord where
  /-- Format `CMD`: the command word sampled at one rising clock edge (R65). -/
  | cmd (cw : CommandWord)
  /-- Format `SYM`: one symbol code on a validator lane with no clock edge (R80; log entry 3). -/
  | sym (code : Byte)
deriving DecidableEq, Repr

end Sys2Proof
end

