-- ==== Sys2Proof/Syntax.lean ====
section
/-! DEFINITION. Sys2Proof/Syntax.lean: one constructor per row of spec/opcode_table.json (30_encoding.md R69),
and the textual lines of R74 and R75. -/

namespace Sys2Proof

/-- The rows of the opcode table: the three clocked operations of 42_operations.md, then the 65 alphabet
symbols of R60 in the order of their positions. -/
inductive Instr where
  /-- `RESET` (R130): no operand; `start` and the symbols are ignored. -/
  | reset
  /-- `IDLE` (R131): no operand; the symbols are ignored. -/
  | idle
  /-- `DECODE` (R132): the four symbol codes sampled at the edge, position 0 first. -/
  | decode (sym0 sym1 sym2 sym3 : Byte)
  /-- `SYM_A` (R60, R80): code 0x41, position 0, class D. -/
  | symUpperA
  /-- `SYM_B` (R60, R80): code 0x42, position 1, class D. -/
  | symUpperB
  /-- `SYM_C` (R60, R80): code 0x43, position 2, class D. -/
  | symUpperC
  /-- `SYM_D` (R60, R80): code 0x44, position 3, class D. -/
  | symUpperD
  /-- `SYM_E` (R60, R80): code 0x45, position 4, class D. -/
  | symUpperE
  /-- `SYM_F` (R60, R80): code 0x46, position 5, class D. -/
  | symUpperF
  /-- `SYM_G` (R60, R80): code 0x47, position 6, class D. -/
  | symUpperG
  /-- `SYM_H` (R60, R80): code 0x48, position 7, class D. -/
  | symUpperH
  /-- `SYM_I` (R60, R80): code 0x49, position 8, class D. -/
  | symUpperI
  /-- `SYM_J` (R60, R80): code 0x4A, position 9, class D. -/
  | symUpperJ
  /-- `SYM_K` (R60, R80): code 0x4B, position 10, class D. -/
  | symUpperK
  /-- `SYM_L` (R60, R80): code 0x4C, position 11, class D. -/
  | symUpperL
  /-- `SYM_M` (R60, R80): code 0x4D, position 12, class D. -/
  | symUpperM
  /-- `SYM_N` (R60, R80): code 0x4E, position 13, class D. -/
  | symUpperN
  /-- `SYM_O` (R60, R80): code 0x4F, position 14, class D. -/
  | symUpperO
  /-- `SYM_P` (R60, R80): code 0x50, position 15, class D. -/
  | symUpperP
  /-- `SYM_Q` (R60, R80): code 0x51, position 16, class D. -/
  | symUpperQ
  /-- `SYM_R` (R60, R80): code 0x52, position 17, class D. -/
  | symUpperR
  /-- `SYM_S` (R60, R80): code 0x53, position 18, class D. -/
  | symUpperS
  /-- `SYM_T` (R60, R80): code 0x54, position 19, class D. -/
  | symUpperT
  /-- `SYM_U` (R60, R80): code 0x55, position 20, class D. -/
  | symUpperU
  /-- `SYM_V` (R60, R80): code 0x56, position 21, class D. -/
  | symUpperV
  /-- `SYM_W` (R60, R80): code 0x57, position 22, class D. -/
  | symUpperW
  /-- `SYM_X` (R60, R80): code 0x58, position 23, class D. -/
  | symUpperX
  /-- `SYM_Y` (R60, R80): code 0x59, position 24, class D. -/
  | symUpperY
  /-- `SYM_Z` (R60, R80): code 0x5A, position 25, class D. -/
  | symUpperZ
  /-- `SYM_a` (R60, R80): code 0x61, position 26, class D. -/
  | symLowerA
  /-- `SYM_b` (R60, R80): code 0x62, position 27, class D. -/
  | symLowerB
  /-- `SYM_c` (R60, R80): code 0x63, position 28, class D. -/
  | symLowerC
  /-- `SYM_d` (R60, R80): code 0x64, position 29, class D. -/
  | symLowerD
  /-- `SYM_e` (R60, R80): code 0x65, position 30, class D. -/
  | symLowerE
  /-- `SYM_f` (R60, R80): code 0x66, position 31, class D. -/
  | symLowerF
  /-- `SYM_g` (R60, R80): code 0x67, position 32, class D. -/
  | symLowerG
  /-- `SYM_h` (R60, R80): code 0x68, position 33, class D. -/
  | symLowerH
  /-- `SYM_i` (R60, R80): code 0x69, position 34, class D. -/
  | symLowerI
  /-- `SYM_j` (R60, R80): code 0x6A, position 35, class D. -/
  | symLowerJ
  /-- `SYM_k` (R60, R80): code 0x6B, position 36, class D. -/
  | symLowerK
  /-- `SYM_l` (R60, R80): code 0x6C, position 37, class D. -/
  | symLowerL
  /-- `SYM_m` (R60, R80): code 0x6D, position 38, class D. -/
  | symLowerM
  /-- `SYM_n` (R60, R80): code 0x6E, position 39, class D. -/
  | symLowerN
  /-- `SYM_o` (R60, R80): code 0x6F, position 40, class D. -/
  | symLowerO
  /-- `SYM_p` (R60, R80): code 0x70, position 41, class D. -/
  | symLowerP
  /-- `SYM_q` (R60, R80): code 0x71, position 42, class D. -/
  | symLowerQ
  /-- `SYM_r` (R60, R80): code 0x72, position 43, class D. -/
  | symLowerR
  /-- `SYM_s` (R60, R80): code 0x73, position 44, class D. -/
  | symLowerS
  /-- `SYM_t` (R60, R80): code 0x74, position 45, class D. -/
  | symLowerT
  /-- `SYM_u` (R60, R80): code 0x75, position 46, class D. -/
  | symLowerU
  /-- `SYM_v` (R60, R80): code 0x76, position 47, class D. -/
  | symLowerV
  /-- `SYM_w` (R60, R80): code 0x77, position 48, class D. -/
  | symLowerW
  /-- `SYM_x` (R60, R80): code 0x78, position 49, class D. -/
  | symLowerX
  /-- `SYM_y` (R60, R80): code 0x79, position 50, class D. -/
  | symLowerY
  /-- `SYM_z` (R60, R80): code 0x7A, position 51, class D. -/
  | symLowerZ
  /-- `SYM_0` (R60, R80): code 0x30, position 52, class D. -/
  | symDigit0
  /-- `SYM_1` (R60, R80): code 0x31, position 53, class D. -/
  | symDigit1
  /-- `SYM_2` (R60, R80): code 0x32, position 54, class D. -/
  | symDigit2
  /-- `SYM_3` (R60, R80): code 0x33, position 55, class D. -/
  | symDigit3
  /-- `SYM_4` (R60, R80): code 0x34, position 56, class D. -/
  | symDigit4
  /-- `SYM_5` (R60, R80): code 0x35, position 57, class D. -/
  | symDigit5
  /-- `SYM_6` (R60, R80): code 0x36, position 58, class D. -/
  | symDigit6
  /-- `SYM_7` (R60, R80): code 0x37, position 59, class D. -/
  | symDigit7
  /-- `SYM_8` (R60, R80): code 0x38, position 60, class D. -/
  | symDigit8
  /-- `SYM_9` (R60, R80): code 0x39, position 61, class D. -/
  | symDigit9
  /-- `SYM_PLUS` (R60, R80): code 0x2B, position 62, class D. -/
  | symPlus
  /-- `SYM_SLASH` (R60, R80): code 0x2F, position 63, class D. -/
  | symSlash
  /-- `SYM_PAD` (R60, R80): code 0x3D, position 64, class P. -/
  | symPad
deriving DecidableEq, Repr

/-- One line of the spec's textual notation (R74, R75). A text is the list of its character codes. -/
inductive Line where
  /-- An edge with `rst` = 1. -/
  | reset
  /-- An edge with `rst` = 0 and `start` = 0. -/
  | idle
  /-- `DECODE "c0c1c2c3"`, or the four codes in hexadecimal. -/
  | decode (text : List Byte)
  /-- The pseudo-instruction `STREAM "text"`. -/
  | stream (text : List Byte)
deriving DecidableEq, Repr

end Sys2Proof
end

