-- ==== Sys2Proof/Decode.lean ====
section
/-! DEFINITION. Sys2Proof/Decode.lean: the operation select of the command word (30_encoding.md R65), the
symbol table read as an encoding (R60, R69), and after them the encoder. -/

namespace Sys2Proof

/-- Why bits are no row of the table. -/
inductive DecodeError where
  /-- An 8-bit code that matches no `SYM` row: a non-member (R69, R70). -/
  | nonMember (code : Byte)
  /-- A command word has 34 bits; the five bytes given carry a 1 above bit 33 (R65). -/
  | bitAboveCommandWord
  /-- The table's words are one byte (`SYM`) or five bytes (`CMD`) long (R69; log entry 8). -/
  | badLength (bytes : Nat)
deriving DecidableEq, Repr

/-- `rst` = `CW[33]` (R65). -/
def commandRst (cw : CommandWord) : Bool := cw[33]

/-- `start` = `CW[32]` (R65). -/
def commandStart (cw : CommandWord) : Bool := cw[32]

/-- The symbol at position 0: `G[31:24]` = `CW[31:24]` (R64, R65). -/
def commandSym0 (cw : CommandWord) : Byte := cw.extractLsb' 24 8

/-- The symbol at position 1: `CW[23:16]`. -/
def commandSym1 (cw : CommandWord) : Byte := cw.extractLsb' 16 8

/-- The symbol at position 2: `CW[15:8]`. -/
def commandSym2 (cw : CommandWord) : Byte := cw.extractLsb' 8 8

/-- The symbol at position 3: `CW[7:0]`. -/
def commandSym3 (cw : CommandWord) : Byte := cw.extractLsb' 0 8

/-- The operation select of R65: complete, and `rst` has priority over `start` (R133). -/
def decodeCommand (cw : CommandWord) : Instr :=
  if commandRst cw then .reset
  else if commandStart cw then
    .decode (commandSym0 cw) (commandSym1 cw) (commandSym2 cw) (commandSym3 cw)
  else .idle

/-- The `SYM` rows of the capital letters (R60): code and row. -/
def symbolRowsUpper : List (Byte × Instr) :=
  [(0x41, .symUpperA), (0x42, .symUpperB), (0x43, .symUpperC), (0x44, .symUpperD),
   (0x45, .symUpperE), (0x46, .symUpperF), (0x47, .symUpperG), (0x48, .symUpperH),
   (0x49, .symUpperI), (0x4A, .symUpperJ), (0x4B, .symUpperK), (0x4C, .symUpperL),
   (0x4D, .symUpperM), (0x4E, .symUpperN), (0x4F, .symUpperO), (0x50, .symUpperP),
   (0x51, .symUpperQ), (0x52, .symUpperR), (0x53, .symUpperS), (0x54, .symUpperT),
   (0x55, .symUpperU), (0x56, .symUpperV), (0x57, .symUpperW), (0x58, .symUpperX),
   (0x59, .symUpperY), (0x5A, .symUpperZ)]

/-- The `SYM` rows of the small letters (R60): code and row. -/
def symbolRowsLower : List (Byte × Instr) :=
  [(0x61, .symLowerA), (0x62, .symLowerB), (0x63, .symLowerC), (0x64, .symLowerD),
   (0x65, .symLowerE), (0x66, .symLowerF), (0x67, .symLowerG), (0x68, .symLowerH),
   (0x69, .symLowerI), (0x6A, .symLowerJ), (0x6B, .symLowerK), (0x6C, .symLowerL),
   (0x6D, .symLowerM), (0x6E, .symLowerN), (0x6F, .symLowerO), (0x70, .symLowerP),
   (0x71, .symLowerQ), (0x72, .symLowerR), (0x73, .symLowerS), (0x74, .symLowerT),
   (0x75, .symLowerU), (0x76, .symLowerV), (0x77, .symLowerW), (0x78, .symLowerX),
   (0x79, .symLowerY), (0x7A, .symLowerZ)]

/-- The `SYM` rows of the digits (R60): code and row. -/
def symbolRowsDigit : List (Byte × Instr) :=
  [(0x30, .symDigit0), (0x31, .symDigit1), (0x32, .symDigit2), (0x33, .symDigit3),
   (0x34, .symDigit4), (0x35, .symDigit5), (0x36, .symDigit6), (0x37, .symDigit7),
   (0x38, .symDigit8), (0x39, .symDigit9)]

/-- The `SYM` rows of the `+`, `/` and the padding symbol `=` (R60): code and row. -/
def symbolRowsOther : List (Byte × Instr) :=
  [(0x2B, .symPlus), (0x2F, .symSlash), (0x3D, .symPad)]

/-- The 65 `SYM` rows of the table (R69). -/
def symbolRows : List (Byte × Instr) :=
  symbolRowsUpper ++ symbolRowsLower ++ symbolRowsDigit ++ symbolRowsOther

/-- The row of an 8-bit code: the mask of every `SYM` row is 0xFF, so all eight bits are compared (R69). -/
def decodeSymbol (code : Byte) : Except DecodeError Instr :=
  match symbolRows.lookup code with
  | some i => .ok i
  | none => .error (.nonMember code)

/-- The decoder, total on both formats. A command word always decodes (R65, R72). -/
def decode : InputWord → Except DecodeError Instr
  | .cmd cw => .ok (decodeCommand cw)
  | .sym code => decodeSymbol code

/-- The input word a list of bytes stands for: the table's bit 0 is bit 0 of the first byte (log entry 8). -/
def InputWord.ofBytes : List Byte → Except DecodeError InputWord
  | [b] => .ok (.sym b)
  | [b0, b1, b2, b3, b4] =>
    if b4.toNat < 4 then
      .ok (.cmd (BitVec.ofNat 34 (b0.toNat + 256 * b1.toNat + 65536 * b2.toNat + 16777216 * b3.toNat
        + 4294967296 * b4.toNat)))
    else .error .bitAboveCommandWord
  | bytes => .error (.badLength bytes.length)

/-- The `n` lowest bytes of `w`, the least significant first. -/
def bytesOf : Nat → Nat → List Byte
  | 0, _ => []
  | n + 1, w => BitVec.ofNat 8 w :: bytesOf n (w / 256)

/-- The input word of a table row's bits: `nbits` bits in whole bytes, numbered as the table numbers them. -/
def InputWord.ofTable (nbits w : Nat) : Except DecodeError InputWord :=
  InputWord.ofBytes (bytesOf ((nbits + 7) / 8) w)

/-- The decoder on any bytes: one input word, or the reason there is none. -/
def decodeBytes (bytes : List Byte) : Except DecodeError Instr :=
  (InputWord.ofBytes bytes).bind decode

/-- What the decoder reads from the bits of a table row. -/
def decodeTableWord (nbits w : Nat) : Option Instr :=
  (decodeBytes (bytesOf ((nbits + 7) / 8) w)).toOption

/-! ### The encoder -/

/-- `G = sym0 ∥ sym1 ∥ sym2 ∥ sym3` (R64). -/
def groupWord (sym0 sym1 sym2 sym3 : Byte) : GroupWord :=
  sym0 ++ sym1 ++ sym2 ++ sym3

/-- `CW = rst ∥ start ∥ G` (R65). -/
def commandWord (rst start : Bool) (g : GroupWord) : CommandWord :=
  BitVec.ofBool rst ++ BitVec.ofBool start ++ g

/-- The words of a row. On `RESET` and `IDLE` the ignored bits are written as 0, as R74 has its vectors
drive them. -/
def encode : Instr → InputWord
  | .reset => .cmd (commandWord true false 0)
  | .idle => .cmd (commandWord false false 0)
  | .decode sym0 sym1 sym2 sym3 => .cmd (commandWord false true (groupWord sym0 sym1 sym2 sym3))
  | .symUpperA => .sym 0x41
  | .symUpperB => .sym 0x42
  | .symUpperC => .sym 0x43
  | .symUpperD => .sym 0x44
  | .symUpperE => .sym 0x45
  | .symUpperF => .sym 0x46
  | .symUpperG => .sym 0x47
  | .symUpperH => .sym 0x48
  | .symUpperI => .sym 0x49
  | .symUpperJ => .sym 0x4A
  | .symUpperK => .sym 0x4B
  | .symUpperL => .sym 0x4C
  | .symUpperM => .sym 0x4D
  | .symUpperN => .sym 0x4E
  | .symUpperO => .sym 0x4F
  | .symUpperP => .sym 0x50
  | .symUpperQ => .sym 0x51
  | .symUpperR => .sym 0x52
  | .symUpperS => .sym 0x53
  | .symUpperT => .sym 0x54
  | .symUpperU => .sym 0x55
  | .symUpperV => .sym 0x56
  | .symUpperW => .sym 0x57
  | .symUpperX => .sym 0x58
  | .symUpperY => .sym 0x59
  | .symUpperZ => .sym 0x5A
  | .symLowerA => .sym 0x61
  | .symLowerB => .sym 0x62
  | .symLowerC => .sym 0x63
  | .symLowerD => .sym 0x64
  | .symLowerE => .sym 0x65
  | .symLowerF => .sym 0x66
  | .symLowerG => .sym 0x67
  | .symLowerH => .sym 0x68
  | .symLowerI => .sym 0x69
  | .symLowerJ => .sym 0x6A
  | .symLowerK => .sym 0x6B
  | .symLowerL => .sym 0x6C
  | .symLowerM => .sym 0x6D
  | .symLowerN => .sym 0x6E
  | .symLowerO => .sym 0x6F
  | .symLowerP => .sym 0x70
  | .symLowerQ => .sym 0x71
  | .symLowerR => .sym 0x72
  | .symLowerS => .sym 0x73
  | .symLowerT => .sym 0x74
  | .symLowerU => .sym 0x75
  | .symLowerV => .sym 0x76
  | .symLowerW => .sym 0x77
  | .symLowerX => .sym 0x78
  | .symLowerY => .sym 0x79
  | .symLowerZ => .sym 0x7A
  | .symDigit0 => .sym 0x30
  | .symDigit1 => .sym 0x31
  | .symDigit2 => .sym 0x32
  | .symDigit3 => .sym 0x33
  | .symDigit4 => .sym 0x34
  | .symDigit5 => .sym 0x35
  | .symDigit6 => .sym 0x36
  | .symDigit7 => .sym 0x37
  | .symDigit8 => .sym 0x38
  | .symDigit9 => .sym 0x39
  | .symPlus => .sym 0x2B
  | .symSlash => .sym 0x2F
  | .symPad => .sym 0x3D

/-! ### The table's rows as masks and matches -/

/-- One row's `width`, `mask` and `match` columns (R69). -/
structure RowPattern where
  width : Nat
  mask : Nat
  value : Nat
deriving DecidableEq, Repr

/-- The bits `w` of a word of `width` bits are words of this row. -/
def RowPattern.matchesBits (p : RowPattern) (width w : Nat) : Bool :=
  p.width == width && w &&& p.mask == p.value

/-- The pattern of a row, as the table has it. -/
def rowPattern : Instr → RowPattern
  | .reset => ⟨34, 0x200000000, 0x200000000⟩
  | .idle => ⟨34, 0x300000000, 0x000000000⟩
  | .decode _ _ _ _ => ⟨34, 0x300000000, 0x100000000⟩
  | .symUpperA => ⟨8, 0xFF, 0x41⟩
  | .symUpperB => ⟨8, 0xFF, 0x42⟩
  | .symUpperC => ⟨8, 0xFF, 0x43⟩
  | .symUpperD => ⟨8, 0xFF, 0x44⟩
  | .symUpperE => ⟨8, 0xFF, 0x45⟩
  | .symUpperF => ⟨8, 0xFF, 0x46⟩
  | .symUpperG => ⟨8, 0xFF, 0x47⟩
  | .symUpperH => ⟨8, 0xFF, 0x48⟩
  | .symUpperI => ⟨8, 0xFF, 0x49⟩
  | .symUpperJ => ⟨8, 0xFF, 0x4A⟩
  | .symUpperK => ⟨8, 0xFF, 0x4B⟩
  | .symUpperL => ⟨8, 0xFF, 0x4C⟩
  | .symUpperM => ⟨8, 0xFF, 0x4D⟩
  | .symUpperN => ⟨8, 0xFF, 0x4E⟩
  | .symUpperO => ⟨8, 0xFF, 0x4F⟩
  | .symUpperP => ⟨8, 0xFF, 0x50⟩
  | .symUpperQ => ⟨8, 0xFF, 0x51⟩
  | .symUpperR => ⟨8, 0xFF, 0x52⟩
  | .symUpperS => ⟨8, 0xFF, 0x53⟩
  | .symUpperT => ⟨8, 0xFF, 0x54⟩
  | .symUpperU => ⟨8, 0xFF, 0x55⟩
  | .symUpperV => ⟨8, 0xFF, 0x56⟩
  | .symUpperW => ⟨8, 0xFF, 0x57⟩
  | .symUpperX => ⟨8, 0xFF, 0x58⟩
  | .symUpperY => ⟨8, 0xFF, 0x59⟩
  | .symUpperZ => ⟨8, 0xFF, 0x5A⟩
  | .symLowerA => ⟨8, 0xFF, 0x61⟩
  | .symLowerB => ⟨8, 0xFF, 0x62⟩
  | .symLowerC => ⟨8, 0xFF, 0x63⟩
  | .symLowerD => ⟨8, 0xFF, 0x64⟩
  | .symLowerE => ⟨8, 0xFF, 0x65⟩
  | .symLowerF => ⟨8, 0xFF, 0x66⟩
  | .symLowerG => ⟨8, 0xFF, 0x67⟩
  | .symLowerH => ⟨8, 0xFF, 0x68⟩
  | .symLowerI => ⟨8, 0xFF, 0x69⟩
  | .symLowerJ => ⟨8, 0xFF, 0x6A⟩
  | .symLowerK => ⟨8, 0xFF, 0x6B⟩
  | .symLowerL => ⟨8, 0xFF, 0x6C⟩
  | .symLowerM => ⟨8, 0xFF, 0x6D⟩
  | .symLowerN => ⟨8, 0xFF, 0x6E⟩
  | .symLowerO => ⟨8, 0xFF, 0x6F⟩
  | .symLowerP => ⟨8, 0xFF, 0x70⟩
  | .symLowerQ => ⟨8, 0xFF, 0x71⟩
  | .symLowerR => ⟨8, 0xFF, 0x72⟩
  | .symLowerS => ⟨8, 0xFF, 0x73⟩
  | .symLowerT => ⟨8, 0xFF, 0x74⟩
  | .symLowerU => ⟨8, 0xFF, 0x75⟩
  | .symLowerV => ⟨8, 0xFF, 0x76⟩
  | .symLowerW => ⟨8, 0xFF, 0x77⟩
  | .symLowerX => ⟨8, 0xFF, 0x78⟩
  | .symLowerY => ⟨8, 0xFF, 0x79⟩
  | .symLowerZ => ⟨8, 0xFF, 0x7A⟩
  | .symDigit0 => ⟨8, 0xFF, 0x30⟩
  | .symDigit1 => ⟨8, 0xFF, 0x31⟩
  | .symDigit2 => ⟨8, 0xFF, 0x32⟩
  | .symDigit3 => ⟨8, 0xFF, 0x33⟩
  | .symDigit4 => ⟨8, 0xFF, 0x34⟩
  | .symDigit5 => ⟨8, 0xFF, 0x35⟩
  | .symDigit6 => ⟨8, 0xFF, 0x36⟩
  | .symDigit7 => ⟨8, 0xFF, 0x37⟩
  | .symDigit8 => ⟨8, 0xFF, 0x38⟩
  | .symDigit9 => ⟨8, 0xFF, 0x39⟩
  | .symPlus => ⟨8, 0xFF, 0x2B⟩
  | .symSlash => ⟨8, 0xFF, 0x2F⟩
  | .symPad => ⟨8, 0xFF, 0x3D⟩

/-- The width and the bits of an input word. -/
def InputWord.bits : InputWord → Nat × Nat
  | .cmd cw => (34, cw.toNat)
  | .sym code => (8, code.toNat)

end Sys2Proof
end

