-- ==== Sys2Proof/Machine/Rom.lean ====
section
/-! DEFINITION. Sys2Proof/Machine/Rom.lean: `alphabet_rom`, the block's one memory (20_memory.md R40 to R55).
It is a constant and no state (10_state.md R22); its one primitive is the read of R41. -/

namespace Sys2Proof.Machine

/-- `SymCode` on the capital letters, positions 0 to 25 (R60). -/
def symCodesUpper : List Byte :=
  [0x41, 0x42, 0x43, 0x44, 0x45, 0x46, 0x47, 0x48, 0x49, 0x4A, 0x4B, 0x4C, 0x4D,
   0x4E, 0x4F, 0x50, 0x51, 0x52, 0x53, 0x54, 0x55, 0x56, 0x57, 0x58, 0x59, 0x5A]

/-- `SymCode` on the small letters, positions 26 to 51 (R60). -/
def symCodesLower : List Byte :=
  [0x61, 0x62, 0x63, 0x64, 0x65, 0x66, 0x67, 0x68, 0x69, 0x6A, 0x6B, 0x6C, 0x6D,
   0x6E, 0x6F, 0x70, 0x71, 0x72, 0x73, 0x74, 0x75, 0x76, 0x77, 0x78, 0x79, 0x7A]

/-- `SymCode` on the digits, positions 52 to 61 (R60). -/
def symCodesDigit : List Byte :=
  [0x30, 0x31, 0x32, 0x33, 0x34, 0x35, 0x36, 0x37, 0x38, 0x39]

/-- `SymCode` on `+`, `/` and the padding symbol, positions 62, 63 and 64 (R60). -/
def symCodesOther : List Byte := [0x2B, 0x2F, 0x3D]

/-- The ROM's 65 entries in address order (R40, R60). The codes are ASCII, which the spec supplies from
general knowledge (93_implementation_defined.md G1; log entry 9). -/
def symCodes : List Byte := symCodesUpper ++ symCodesLower ++ symCodesDigit ++ symCodesOther

/-- The ROM has 65 entries (R40). -/
theorem symCodes_length : symCodes.length = 65 := by decide

/-- `MemRead(a, 1)`, also written `ROM[a]` (R41): the entry at an address 0 to 64. -/
def memRead (a : Position) : Byte := symCodes[a.val]'(Nat.lt_of_lt_of_eq a.isLt symCodes_length.symm)

/-- A memory as cells (address, byte). -/
abbrev Memory := List Host.Cell

/-- The canonical form: addresses strictly rising. An unlisted address reads as nothing, so no entry
repeats what an unlisted address reads as. -/
abbrev Memory.wf (m : Memory) : Prop := (m.map Prod.fst).Pairwise (· < ·)

/-- Reading a cell: nothing at an address that does not exist. -/
def Memory.read (m : Memory) (a : Nat) : Option Byte := m.lookup a

/-- The whole address map of the block (R54), as cells: addresses 0 to 64. No operation writes it (R41). -/
def alphabetRom : Memory := (List.finRange 65).map fun a => (a.val, memRead a)

end Sys2Proof.Machine
end

