-- ==== Sys2Proof/Machine/State.lean ====
section
/-! DEFINITION. Sys2Proof/Machine/State.lean: the state record of the block (10_state.md R20, R22), the environment
that drives its ports, the two together, and the reasons a step could stop. -/

namespace Sys2Proof.Machine

/-- The state record of the block, all of it: six registers, 28 bits (R20). It holds no port, no ROM content,
no combinational signal and no clock (R22). -/
structure Registers where
  /-- `OUT0`: first byte of the chunk, or 0x00. -/
  out0 : Byte
  /-- `OUT1`: second byte, or 0x00. -/
  out1 : Byte
  /-- `OUT2`: third byte, or 0x00. -/
  out2 : Byte
  /-- `OUTLEN`: number of bytes of the chunk, plain binary. -/
  outlen : BitVec 2
  /-- `VALID`: the group decoded at the last edge was well formed (R24). -/
  valid : Bool
  /-- `MALFORMED`: the group decoded at the last edge was malformed (R24). -/
  malformed : Bool
deriving DecidableEq, Repr

/-- The record `ZERO` of R133: every register at its reset value (R30). -/
def Registers.zero : Registers :=
  { out0 := 0x00, out1 := 0x00, out2 := 0x00, outlen := 0, valid := false, malformed := false }

/-- The environment, which drives the input ports and the clock (00_scope.md R8). It is no part of the block and
no state of the spec's: it is what a claim of R9, point 1 quantifies over (log entries 1 and 5). -/
structure Environment where
  /-- What the environment presents next, the next input first. -/
  inputs : List InputWord
  /-- The number of the next rising edge; edges count from 0 (R6). -/
  edge : Nat
deriving DecidableEq, Repr

/-- The block and the environment that drives it. The block's own step takes the ports as its argument
(`stepOn`); the closed system is what the host's `step : State → _` runs (log entry 1). -/
structure State where
  /-- The block. -/
  regs : Registers
  /-- What drives its ports. -/
  env : Environment
deriving DecidableEq, Repr

/-- Faults. The spec gives the block none: a malformed group is a normal outcome on a flag (R9 point 5, R140,
R171), so this type is empty and no step can fault. Nobody raises one; safe. -/
inductive Fault where
deriving DecidableEq, Repr

/-- Refusals. -/
inductive Refusal where
  /-- An arm of `exec` without a meaning; no arm raises it. Safe. -/
  | notModelled (mnemonic : String)
deriving DecidableEq, Repr

/-- The machine after a `RESET` edge (R30): all 28 bits zero. Nothing has been presented, and the next edge
is numbered 0 (log entry 5). -/
def State.reset : State :=
  { regs := Registers.zero, env := { inputs := [], edge := 0 } }

end Sys2Proof.Machine
end

