-- ==== Sys2Proof/Machine/Operands.lean ====
section
/-! DEFINITION. Sys2Proof/Machine/Operands.lean: the ports (10_state.md R21) and what one validator lane makes of one
symbol (40_alphabet_lookup.md R80 to R88; 30_encoding.md R62, R63). -/

namespace Sys2Proof.Machine

/-! ### Ports -/

/-- The input ports sampled at an edge, other than the clock (R21): a step is the edge. -/
structure InputPorts where
  rst : Bool
  start : Bool
  sym0 : Byte
  sym1 : Byte
  sym2 : Byte
  sym3 : Byte
deriving DecidableEq, Repr

/-- The ports a command word is the notation of (R65). -/
def InputPorts.ofWord (cw : CommandWord) : InputPorts :=
  { rst := commandRst cw, start := commandStart cw, sym0 := commandSym0 cw, sym1 := commandSym1 cw,
    sym2 := commandSym2 cw, sym3 := commandSym3 cw }

/-- The command word of the ports (R65). -/
def InputPorts.toWord (p : InputPorts) : CommandWord :=
  commandWord p.rst p.start (groupWord p.sym0 p.sym1 p.sym2 p.sym3)

/-- The output ports (R21). -/
structure OutputPorts where
  valid : Bool
  malformed : Bool
  outLen : BitVec 2
  out0 : Byte
  out1 : Byte
  out2 : Byte
deriving DecidableEq, Repr

/-- Each output port is wired to the register of the same name, with no logic between (R21). -/
def State.outputs (s : State) : OutputPorts :=
  { valid := s.regs.valid, malformed := s.regs.malformed, outLen := s.regs.outlen, out0 := s.regs.out0,
    out1 := s.regs.out1, out2 := s.regs.out2 }

/-! ### The lookup -/

/-- `position_of(c)` (R80): the address whose entry equals `c` in all eight bits; `none` is `NOT_FOUND` (R85). -/
def positionOf (c : Byte) : Option Position :=
  (List.finRange 65).find? fun i => memRead i == c

/-- `is_member(c)` (R81). -/
def isMember (c : Byte) : Bool := (positionOf c).isSome

/-- The 7-bit position format `POS[6:0]` (R62). -/
def positionBits (q : Position) : BitVec 7 := BitVec.ofNat 7 q.val

/-- A lane record (R63). -/
structure Lane where
  member : Bool
  pad : Bool
  val : SixBit
deriving DecidableEq, Repr

/-- `Classify(c)`, the pseudocode of R86. -/
def classify (c : Byte) : Lane :=
  match positionOf c with
  | none => { member := false, pad := false, val := 0 }
  | some q =>
    if q = 64 then { member := true, pad := true, val := 0 }
    else { member := true, pad := false, val := (positionBits q).extractLsb' 0 6 }

/-- The three symbol classes of R6. -/
inductive SymbolClass where
  /-- `D`: a member at position 0 to 63. -/
  | data
  /-- `P`: the padding symbol, position 64. -/
  | padding
  /-- `N`: a non-member. -/
  | nonMember
deriving DecidableEq, Repr

/-- The class of a code (R6). -/
def classOf (c : Byte) : SymbolClass :=
  match positionOf c with
  | none => .nonMember
  | some q => if q = 64 then .padding else .data

/-- The shape of a group: its four classes, position 0 first (R6, R71). -/
def shapeOf (s0 s1 s2 s3 : Byte) : List SymbolClass :=
  [classOf s0, classOf s1, classOf s2, classOf s3]

end Sys2Proof.Machine
end

