-- ==== Sys2Proof/Machine/Flags.lean ====
section
/-! DEFINITION. Sys2Proof/Machine/Flags.lean: the checks behind `VALID` and `MALFORMED`, the chunk length, and the
spec-level classification of malformed groups (41_group_decode.md R101 to R106, R120). -/

namespace Sys2Proof.Machine

/-- `all_member` of R88 and R102. -/
def allMember (l0 l1 l2 l3 : Lane) : Bool := l0.member && l1.member && l2.member && l3.member

/-- `head_pad` of R101: padding at position 0 or 1. -/
def headPad (l0 l1 : Lane) : Bool := l0.pad || l1.pad

/-- `gap` of R105: padding at position 2 followed by a symbol that is not padding. -/
def gap (l2 l3 : Lane) : Bool := l2.pad && !l3.pad

/-- `npad` of R103: the number of padding symbols, 0 to 4. -/
def padCount (l0 l1 l2 l3 : Lane) : Nat := l0.pad.toNat + l1.pad.toNat + l2.pad.toNat + l3.pad.toNat

/-- `ok` of R106, as the pseudocode of R113 forms it. -/
def groupOk (l0 l1 l2 l3 : Lane) : Bool :=
  allMember l0 l1 l2 l3 && !headPad l0 l1 && !gap l2 l3

/-- `outlen = 3 − (pad_2 + pad_3)` of R103 and R113, an integer subtraction. -/
def chunkLength (l2 l3 : Lane) : Nat := 3 - (l2.pad.toNat + l3.pad.toNat)

/-- The error taxonomy (R141). -/
inductive ErrKind where
  /-- Code 0: the group is well formed. -/
  | none
  /-- Code 1, InvalidCharacter. -/
  | invalidCharacter
  /-- Code 2, InvalidPaddingPlacement. -/
  | invalidPaddingPlacement
  /-- Code 3, IncompleteTrailingGroup: never produced by the block (R143). -/
  | incompleteTrailingGroup
deriving DecidableEq, Repr

/-- The codes of R141. -/
def ErrKind.code : ErrKind → Nat
  | .none => 0
  | .invalidCharacter => 1
  | .invalidPaddingPlacement => 2
  | .incompleteTrailingGroup => 3

/-- `ErrKind`, the pseudocode of R120. It is a function of the spec only: no register or port carries it. -/
def errKind (s0 s1 s2 s3 : Byte) : ErrKind :=
  let l0 := classify s0
  let l1 := classify s1
  let l2 := classify s2
  let l3 := classify s3
  if headPad l0 l1 then .invalidPaddingPlacement
  else if allMember l0 l1 l2 l3 = false then .invalidCharacter
  else if gap l2 l3 then .invalidPaddingPlacement
  else .none

end Sys2Proof.Machine
end

