-- ==== Sys2Proof/Machine/Ops.lean ====
section
/-! DEFINITION. Sys2Proof/Machine/Ops.lean: the regrouper, the output mux and `DecodeGroup` (41_group_decode.md R107 to
R113), writing the registers, and what the environment drives. The block has no exception to take and none to
return from (60_exceptions.md R140, R146, R147). -/

namespace Sys2Proof.Machine

/-! ### The 6-bit-to-8-bit regrouper -/

/-- Step 3 (R108): `V = (p_0 << 18) | (p_1 << 12) | (p_2 << 6) | p_3` in 24 bits. -/
def valueWord (p0 p1 p2 p3 : SixBit) : ValueWord :=
  (p0.setWidth 24 <<< 18) ||| (p1.setWidth 24 <<< 12) ||| (p2.setWidth 24 <<< 6) ||| p3.setWidth 24

/-- Step 4 (R109): `byte0 = (V >> 16) & 0xFF`. -/
def candidate0 (v : ValueWord) : Byte := ((v >>> 16) &&& 0xFF#24).setWidth 8

/-- Step 4 (R109): `byte1 = (V >> 8) & 0xFF`. -/
def candidate1 (v : ValueWord) : Byte := ((v >>> 8) &&& 0xFF#24).setWidth 8

/-- Step 4 (R109): `byte2 = V & 0xFF`. -/
def candidate2 (v : ValueWord) : Byte := (v &&& 0xFF#24).setWidth 8

/-! ### DecodeGroup -/

/-- The result of `DecodeGroup` (R100): a chunk, or `Malformed` with no bytes and no length. -/
inductive GroupResult where
  | ok (outlen : BitVec 2) (b0 b1 b2 : Byte)
  | malformed
deriving DecidableEq, Repr

/-- Step 5, the output mux (R111): bytes from index `n` on read 0x00. -/
def outputMux (n : Nat) (byte0 byte1 byte2 : Byte) : GroupResult :=
  .ok (BitVec.ofNat 2 n) byte0 (if 2 ≤ n then byte1 else 0x00) (if n = 3 then byte2 else 0x00)

/-- `DecodeGroup(s0, s1, s2, s3)`, the pseudocode of R113. -/
def decodeGroup (s0 s1 s2 s3 : Byte) : GroupResult :=
  let l0 := classify s0
  let l1 := classify s1
  let l2 := classify s2
  let l3 := classify s3
  if groupOk l0 l1 l2 l3 then
    let v := valueWord l0.val l1.val l2.val l3.val
    outputMux (chunkLength l2 l3) (candidate0 v) (candidate1 v) (candidate2 v)
  else .malformed

/-! ### Writing the registers -/

/-- What `DECODE` writes for a result (R132): always all six registers, exactly one flag to 1. -/
def GroupResult.registers : GroupResult → Registers
  | .ok outlen b0 b1 b2 =>
    { out0 := b0, out1 := b1, out2 := b2, outlen := outlen, valid := true, malformed := false }
  | .malformed =>
    { out0 := 0x00, out1 := 0x00, out2 := 0x00, outlen := 0, valid := false, malformed := true }

/-- All six registers take their new value together (R7, R49). -/
def State.writeRegisters (s : State) (r : Registers) : State := { s with regs := r }

/-- The step function `Next` of R133: from the sampled inputs to the new registers. -/
def nextRegisters (p : InputPorts) : Registers :=
  if p.rst then Registers.zero
  else if p.start then (decodeGroup p.sym0 p.sym1 p.sym2 p.sym3).registers
  else Registers.zero

/-- A symbol on a lane with no clock edge: the lane's record is a combinational function of the symbol
(R22, R27), and the lookup writes no register and changes nothing (R80, R82, R165). -/
def lookupOnLane (code : Byte) (s : State) : Lane × State := (classify code, s)

/-- The step of a symbol on a lane: it goes on in the state the lookup leaves. The lane record is no state
(R22 (c)), so it goes nowhere (log entry 3). -/
def symbolOnLane (code : Byte) (s : State) : Host.Outcome State Fault Refusal :=
  .next (lookupOnLane code s).2

/-- The step of an input word that is no row of the table. A non-member on a lane is looked up like any other
code; `NOT_FOUND` is an ordinary result and changes nothing (R80, R82; log entry 4). The decoder rejects an
`InputWord` for no other reason, since every command word decodes (R65, R72). -/
def noRow (e : DecodeError) (s : State) : Host.Outcome State Fault Refusal :=
  match e with
  | .nonMember code => symbolOnLane code s
  | .bitAboveCommandWord => .next s
  | .badLength _ => .next s

/-! ### The output record -/

/-- `OR = VALID ∥ MALFORMED ∥ OUTLEN ∥ OUT0 ∥ OUT1 ∥ OUT2` (R68). -/
def Registers.record (r : Registers) : OutputRecord :=
  BitVec.ofBool r.valid ++ BitVec.ofBool r.malformed ++ r.outlen ++ r.out0 ++ r.out1 ++ r.out2

/-- The registers a record is the notation of (R68). -/
def Registers.ofRecord (w : OutputRecord) : Registers :=
  { out0 := w.extractLsb' 16 8, out1 := w.extractLsb' 8 8, out2 := w.extractLsb' 0 8,
    outlen := w.extractLsb' 24 2, valid := w[27], malformed := w[26] }

/-- The machine before edge 0, when the power-up draw is `draw` (R31, R162): any 28-bit pattern. -/
def State.powerUpWith (draw : OutputRecord) : State :=
  { regs := Registers.ofRecord draw, env := { inputs := [], edge := 0 } }

/-- The machine before edge 0, with the draw `POWERUP_STATE` (R31; log entry 6). -/
def State.powerUp : State := State.powerUpWith Config.powerUpState

/-! ### The environment -/

/-- What the environment drives now: the first input it is to present; if there is none, a rising edge that
samples whatever it drives (log entry 2). -/
def Environment.driven (e : Environment) : InputWord :=
  match e.inputs with
  | w :: _ => w
  | [] => .cmd (Config.freeInput e.edge)

/-- The environment after what it drives now. A command word is sampled by a rising edge, and edges are numbered
(R6); a symbol on a lane is not (log entry 5). -/
def Environment.advance (e : Environment) : Environment :=
  { inputs := e.inputs.tail
    edge := match e.driven with
      | .cmd _ => e.edge + 1
      | .sym _ => e.edge }

/-- The input of this step. -/
def State.nextInput (s : State) : InputWord := s.env.driven

/-- The block as it is, and the environment past this step's input: an input is used once. -/
def State.takeInput (s : State) : State := { s with env := s.env.advance }

/-- The environment presents `ws` next, before whatever it would have presented. -/
def State.present (s : State) (ws : List InputWord) : State :=
  { s with env := { s.env with inputs := ws ++ s.env.inputs } }

end Sys2Proof.Machine
end

