-- ==== Sys2Proof/Machine/Clocked.lean ====
section
/-! DEFINITION. Sys2Proof/Machine/Clocked.lean: the meanings of the three clocked operations (42_operations.md R130 to R132). -/

namespace Sys2Proof.Machine

/-- `RESET` (R130): every register takes its reset value (R30). -/
def execReset (s : State) : Host.Outcome State Fault Refusal :=
  .next (s.writeRegisters
    { out0 := 0x00, out1 := 0x00, out2 := 0x00, outlen := 0, valid := false, malformed := false })

/-- `IDLE` (R131): every register is written with zero; the previous result is not held. -/
def execIdle (s : State) : Host.Outcome State Fault Refusal :=
  .next (s.writeRegisters
    { out0 := 0x00, out1 := 0x00, out2 := 0x00, outlen := 0, valid := false, malformed := false })

/-- `DECODE` (R132): the result of `DecodeGroup` on the four symbols is written to the six registers. -/
def execDecode (sym0 sym1 sym2 sym3 : Byte) (s : State) : Host.Outcome State Fault Refusal :=
  .next (s.writeRegisters (decodeGroup sym0 sym1 sym2 sym3).registers)

end Sys2Proof.Machine
end

