-- ==== Sys2Proof/Machine/Symbols.lean ====
section
/-! DEFINITION. Sys2Proof/Machine/Symbols.lean: the meanings of the 65 `SYM` rows (40_alphabet_lookup.md R80, R86).
Each is the lookup of its own code: combinational, with no clock edge, writing no register (R80, R82, R22;
log entry 3). -/

namespace Sys2Proof.Machine

/-- `SYM_A`: the lookup of 0x41, position 0 (R60, R80). -/
def execSymUpperA (s : State) : Host.Outcome State Fault Refusal := symbolOnLane 0x41 s

/-- `SYM_B`: the lookup of 0x42, position 1 (R60, R80). -/
def execSymUpperB (s : State) : Host.Outcome State Fault Refusal := symbolOnLane 0x42 s

/-- `SYM_C`: the lookup of 0x43, position 2 (R60, R80). -/
def execSymUpperC (s : State) : Host.Outcome State Fault Refusal := symbolOnLane 0x43 s

/-- `SYM_D`: the lookup of 0x44, position 3 (R60, R80). -/
def execSymUpperD (s : State) : Host.Outcome State Fault Refusal := symbolOnLane 0x44 s

/-- `SYM_E`: the lookup of 0x45, position 4 (R60, R80). -/
def execSymUpperE (s : State) : Host.Outcome State Fault Refusal := symbolOnLane 0x45 s

/-- `SYM_F`: the lookup of 0x46, position 5 (R60, R80). -/
def execSymUpperF (s : State) : Host.Outcome State Fault Refusal := symbolOnLane 0x46 s

/-- `SYM_G`: the lookup of 0x47, position 6 (R60, R80). -/
def execSymUpperG (s : State) : Host.Outcome State Fault Refusal := symbolOnLane 0x47 s

/-- `SYM_H`: the lookup of 0x48, position 7 (R60, R80). -/
def execSymUpperH (s : State) : Host.Outcome State Fault Refusal := symbolOnLane 0x48 s

/-- `SYM_I`: the lookup of 0x49, position 8 (R60, R80). -/
def execSymUpperI (s : State) : Host.Outcome State Fault Refusal := symbolOnLane 0x49 s

/-- `SYM_J`: the lookup of 0x4A, position 9 (R60, R80). -/
def execSymUpperJ (s : State) : Host.Outcome State Fault Refusal := symbolOnLane 0x4A s

/-- `SYM_K`: the lookup of 0x4B, position 10 (R60, R80). -/
def execSymUpperK (s : State) : Host.Outcome State Fault Refusal := symbolOnLane 0x4B s

/-- `SYM_L`: the lookup of 0x4C, position 11 (R60, R80). -/
def execSymUpperL (s : State) : Host.Outcome State Fault Refusal := symbolOnLane 0x4C s

/-- `SYM_M`: the lookup of 0x4D, position 12 (R60, R80). -/
def execSymUpperM (s : State) : Host.Outcome State Fault Refusal := symbolOnLane 0x4D s

/-- `SYM_N`: the lookup of 0x4E, position 13 (R60, R80). -/
def execSymUpperN (s : State) : Host.Outcome State Fault Refusal := symbolOnLane 0x4E s

/-- `SYM_O`: the lookup of 0x4F, position 14 (R60, R80). -/
def execSymUpperO (s : State) : Host.Outcome State Fault Refusal := symbolOnLane 0x4F s

/-- `SYM_P`: the lookup of 0x50, position 15 (R60, R80). -/
def execSymUpperP (s : State) : Host.Outcome State Fault Refusal := symbolOnLane 0x50 s

/-- `SYM_Q`: the lookup of 0x51, position 16 (R60, R80). -/
def execSymUpperQ (s : State) : Host.Outcome State Fault Refusal := symbolOnLane 0x51 s

/-- `SYM_R`: the lookup of 0x52, position 17 (R60, R80). -/
def execSymUpperR (s : State) : Host.Outcome State Fault Refusal := symbolOnLane 0x52 s

/-- `SYM_S`: the lookup of 0x53, position 18 (R60, R80). -/
def execSymUpperS (s : State) : Host.Outcome State Fault Refusal := symbolOnLane 0x53 s

/-- `SYM_T`: the lookup of 0x54, position 19 (R60, R80). -/
def execSymUpperT (s : State) : Host.Outcome State Fault Refusal := symbolOnLane 0x54 s

/-- `SYM_U`: the lookup of 0x55, position 20 (R60, R80). -/
def execSymUpperU (s : State) : Host.Outcome State Fault Refusal := symbolOnLane 0x55 s

/-- `SYM_V`: the lookup of 0x56, position 21 (R60, R80). -/
def execSymUpperV (s : State) : Host.Outcome State Fault Refusal := symbolOnLane 0x56 s

/-- `SYM_W`: the lookup of 0x57, position 22 (R60, R80). -/
def execSymUpperW (s : State) : Host.Outcome State Fault Refusal := symbolOnLane 0x57 s

/-- `SYM_X`: the lookup of 0x58, position 23 (R60, R80). -/
def execSymUpperX (s : State) : Host.Outcome State Fault Refusal := symbolOnLane 0x58 s

/-- `SYM_Y`: the lookup of 0x59, position 24 (R60, R80). -/
def execSymUpperY (s : State) : Host.Outcome State Fault Refusal := symbolOnLane 0x59 s

/-- `SYM_Z`: the lookup of 0x5A, position 25 (R60, R80). -/
def execSymUpperZ (s : State) : Host.Outcome State Fault Refusal := symbolOnLane 0x5A s

/-- `SYM_a`: the lookup of 0x61, position 26 (R60, R80). -/
def execSymLowerA (s : State) : Host.Outcome State Fault Refusal := symbolOnLane 0x61 s

/-- `SYM_b`: the lookup of 0x62, position 27 (R60, R80). -/
def execSymLowerB (s : State) : Host.Outcome State Fault Refusal := symbolOnLane 0x62 s

/-- `SYM_c`: the lookup of 0x63, position 28 (R60, R80). -/
def execSymLowerC (s : State) : Host.Outcome State Fault Refusal := symbolOnLane 0x63 s

/-- `SYM_d`: the lookup of 0x64, position 29 (R60, R80). -/
def execSymLowerD (s : State) : Host.Outcome State Fault Refusal := symbolOnLane 0x64 s

/-- `SYM_e`: the lookup of 0x65, position 30 (R60, R80). -/
def execSymLowerE (s : State) : Host.Outcome State Fault Refusal := symbolOnLane 0x65 s

/-- `SYM_f`: the lookup of 0x66, position 31 (R60, R80). -/
def execSymLowerF (s : State) : Host.Outcome State Fault Refusal := symbolOnLane 0x66 s

/-- `SYM_g`: the lookup of 0x67, position 32 (R60, R80). -/
def execSymLowerG (s : State) : Host.Outcome State Fault Refusal := symbolOnLane 0x67 s

/-- `SYM_h`: the lookup of 0x68, position 33 (R60, R80). -/
def execSymLowerH (s : State) : Host.Outcome State Fault Refusal := symbolOnLane 0x68 s

/-- `SYM_i`: the lookup of 0x69, position 34 (R60, R80). -/
def execSymLowerI (s : State) : Host.Outcome State Fault Refusal := symbolOnLane 0x69 s

/-- `SYM_j`: the lookup of 0x6A, position 35 (R60, R80). -/
def execSymLowerJ (s : State) : Host.Outcome State Fault Refusal := symbolOnLane 0x6A s

/-- `SYM_k`: the lookup of 0x6B, position 36 (R60, R80). -/
def execSymLowerK (s : State) : Host.Outcome State Fault Refusal := symbolOnLane 0x6B s

/-- `SYM_l`: the lookup of 0x6C, position 37 (R60, R80). -/
def execSymLowerL (s : State) : Host.Outcome State Fault Refusal := symbolOnLane 0x6C s

/-- `SYM_m`: the lookup of 0x6D, position 38 (R60, R80). -/
def execSymLowerM (s : State) : Host.Outcome State Fault Refusal := symbolOnLane 0x6D s

/-- `SYM_n`: the lookup of 0x6E, position 39 (R60, R80). -/
def execSymLowerN (s : State) : Host.Outcome State Fault Refusal := symbolOnLane 0x6E s

/-- `SYM_o`: the lookup of 0x6F, position 40 (R60, R80). -/
def execSymLowerO (s : State) : Host.Outcome State Fault Refusal := symbolOnLane 0x6F s

/-- `SYM_p`: the lookup of 0x70, position 41 (R60, R80). -/
def execSymLowerP (s : State) : Host.Outcome State Fault Refusal := symbolOnLane 0x70 s

/-- `SYM_q`: the lookup of 0x71, position 42 (R60, R80). -/
def execSymLowerQ (s : State) : Host.Outcome State Fault Refusal := symbolOnLane 0x71 s

/-- `SYM_r`: the lookup of 0x72, position 43 (R60, R80). -/
def execSymLowerR (s : State) : Host.Outcome State Fault Refusal := symbolOnLane 0x72 s

/-- `SYM_s`: the lookup of 0x73, position 44 (R60, R80). -/
def execSymLowerS (s : State) : Host.Outcome State Fault Refusal := symbolOnLane 0x73 s

/-- `SYM_t`: the lookup of 0x74, position 45 (R60, R80). -/
def execSymLowerT (s : State) : Host.Outcome State Fault Refusal := symbolOnLane 0x74 s

/-- `SYM_u`: the lookup of 0x75, position 46 (R60, R80). -/
def execSymLowerU (s : State) : Host.Outcome State Fault Refusal := symbolOnLane 0x75 s

/-- `SYM_v`: the lookup of 0x76, position 47 (R60, R80). -/
def execSymLowerV (s : State) : Host.Outcome State Fault Refusal := symbolOnLane 0x76 s

/-- `SYM_w`: the lookup of 0x77, position 48 (R60, R80). -/
def execSymLowerW (s : State) : Host.Outcome State Fault Refusal := symbolOnLane 0x77 s

/-- `SYM_x`: the lookup of 0x78, position 49 (R60, R80). -/
def execSymLowerX (s : State) : Host.Outcome State Fault Refusal := symbolOnLane 0x78 s

/-- `SYM_y`: the lookup of 0x79, position 50 (R60, R80). -/
def execSymLowerY (s : State) : Host.Outcome State Fault Refusal := symbolOnLane 0x79 s

/-- `SYM_z`: the lookup of 0x7A, position 51 (R60, R80). -/
def execSymLowerZ (s : State) : Host.Outcome State Fault Refusal := symbolOnLane 0x7A s

/-- `SYM_0`: the lookup of 0x30, position 52 (R60, R80). -/
def execSymDigit0 (s : State) : Host.Outcome State Fault Refusal := symbolOnLane 0x30 s

/-- `SYM_1`: the lookup of 0x31, position 53 (R60, R80). -/
def execSymDigit1 (s : State) : Host.Outcome State Fault Refusal := symbolOnLane 0x31 s

/-- `SYM_2`: the lookup of 0x32, position 54 (R60, R80). -/
def execSymDigit2 (s : State) : Host.Outcome State Fault Refusal := symbolOnLane 0x32 s

/-- `SYM_3`: the lookup of 0x33, position 55 (R60, R80). -/
def execSymDigit3 (s : State) : Host.Outcome State Fault Refusal := symbolOnLane 0x33 s

/-- `SYM_4`: the lookup of 0x34, position 56 (R60, R80). -/
def execSymDigit4 (s : State) : Host.Outcome State Fault Refusal := symbolOnLane 0x34 s

/-- `SYM_5`: the lookup of 0x35, position 57 (R60, R80). -/
def execSymDigit5 (s : State) : Host.Outcome State Fault Refusal := symbolOnLane 0x35 s

/-- `SYM_6`: the lookup of 0x36, position 58 (R60, R80). -/
def execSymDigit6 (s : State) : Host.Outcome State Fault Refusal := symbolOnLane 0x36 s

/-- `SYM_7`: the lookup of 0x37, position 59 (R60, R80). -/
def execSymDigit7 (s : State) : Host.Outcome State Fault Refusal := symbolOnLane 0x37 s

/-- `SYM_8`: the lookup of 0x38, position 60 (R60, R80). -/
def execSymDigit8 (s : State) : Host.Outcome State Fault Refusal := symbolOnLane 0x38 s

/-- `SYM_9`: the lookup of 0x39, position 61 (R60, R80). -/
def execSymDigit9 (s : State) : Host.Outcome State Fault Refusal := symbolOnLane 0x39 s

/-- `SYM_PLUS`: the lookup of 0x2B, position 62 (R60, R80). -/
def execSymPlus (s : State) : Host.Outcome State Fault Refusal := symbolOnLane 0x2B s

/-- `SYM_SLASH`: the lookup of 0x2F, position 63 (R60, R80). -/
def execSymSlash (s : State) : Host.Outcome State Fault Refusal := symbolOnLane 0x2F s

/-- `SYM_PAD`: the lookup of 0x3D, position 64 (R60, R80). -/
def execSymPad (s : State) : Host.Outcome State Fault Refusal := symbolOnLane 0x3D s

end Sys2Proof.Machine
end

