-- ==== Sys2Proof/Machine/Dispatch.lean ====
section
/-! DEFINITION. Sys2Proof/Machine/Dispatch.lean: one arm per row of spec/opcode_table.json. -/

namespace Sys2Proof.Machine

def exec (i : Instr) (s : State) : Host.Outcome State Fault Refusal :=
  match i with
  | .reset => Sys2Proof.Machine.execReset s
  | .idle => Sys2Proof.Machine.execIdle s
  | .decode sym0 sym1 sym2 sym3 => Sys2Proof.Machine.execDecode sym0 sym1 sym2 sym3 s
  | .symUpperA => Sys2Proof.Machine.execSymUpperA s
  | .symUpperB => Sys2Proof.Machine.execSymUpperB s
  | .symUpperC => Sys2Proof.Machine.execSymUpperC s
  | .symUpperD => Sys2Proof.Machine.execSymUpperD s
  | .symUpperE => Sys2Proof.Machine.execSymUpperE s
  | .symUpperF => Sys2Proof.Machine.execSymUpperF s
  | .symUpperG => Sys2Proof.Machine.execSymUpperG s
  | .symUpperH => Sys2Proof.Machine.execSymUpperH s
  | .symUpperI => Sys2Proof.Machine.execSymUpperI s
  | .symUpperJ => Sys2Proof.Machine.execSymUpperJ s
  | .symUpperK => Sys2Proof.Machine.execSymUpperK s
  | .symUpperL => Sys2Proof.Machine.execSymUpperL s
  | .symUpperM => Sys2Proof.Machine.execSymUpperM s
  | .symUpperN => Sys2Proof.Machine.execSymUpperN s
  | .symUpperO => Sys2Proof.Machine.execSymUpperO s
  | .symUpperP => Sys2Proof.Machine.execSymUpperP s
  | .symUpperQ => Sys2Proof.Machine.execSymUpperQ s
  | .symUpperR => Sys2Proof.Machine.execSymUpperR s
  | .symUpperS => Sys2Proof.Machine.execSymUpperS s
  | .symUpperT => Sys2Proof.Machine.execSymUpperT s
  | .symUpperU => Sys2Proof.Machine.execSymUpperU s
  | .symUpperV => Sys2Proof.Machine.execSymUpperV s
  | .symUpperW => Sys2Proof.Machine.execSymUpperW s
  | .symUpperX => Sys2Proof.Machine.execSymUpperX s
  | .symUpperY => Sys2Proof.Machine.execSymUpperY s
  | .symUpperZ => Sys2Proof.Machine.execSymUpperZ s
  | .symLowerA => Sys2Proof.Machine.execSymLowerA s
  | .symLowerB => Sys2Proof.Machine.execSymLowerB s
  | .symLowerC => Sys2Proof.Machine.execSymLowerC s
  | .symLowerD => Sys2Proof.Machine.execSymLowerD s
  | .symLowerE => Sys2Proof.Machine.execSymLowerE s
  | .symLowerF => Sys2Proof.Machine.execSymLowerF s
  | .symLowerG => Sys2Proof.Machine.execSymLowerG s
  | .symLowerH => Sys2Proof.Machine.execSymLowerH s
  | .symLowerI => Sys2Proof.Machine.execSymLowerI s
  | .symLowerJ => Sys2Proof.Machine.execSymLowerJ s
  | .symLowerK => Sys2Proof.Machine.execSymLowerK s
  | .symLowerL => Sys2Proof.Machine.execSymLowerL s
  | .symLowerM => Sys2Proof.Machine.execSymLowerM s
  | .symLowerN => Sys2Proof.Machine.execSymLowerN s
  | .symLowerO => Sys2Proof.Machine.execSymLowerO s
  | .symLowerP => Sys2Proof.Machine.execSymLowerP s
  | .symLowerQ => Sys2Proof.Machine.execSymLowerQ s
  | .symLowerR => Sys2Proof.Machine.execSymLowerR s
  | .symLowerS => Sys2Proof.Machine.execSymLowerS s
  | .symLowerT => Sys2Proof.Machine.execSymLowerT s
  | .symLowerU => Sys2Proof.Machine.execSymLowerU s
  | .symLowerV => Sys2Proof.Machine.execSymLowerV s
  | .symLowerW => Sys2Proof.Machine.execSymLowerW s
  | .symLowerX => Sys2Proof.Machine.execSymLowerX s
  | .symLowerY => Sys2Proof.Machine.execSymLowerY s
  | .symLowerZ => Sys2Proof.Machine.execSymLowerZ s
  | .symDigit0 => Sys2Proof.Machine.execSymDigit0 s
  | .symDigit1 => Sys2Proof.Machine.execSymDigit1 s
  | .symDigit2 => Sys2Proof.Machine.execSymDigit2 s
  | .symDigit3 => Sys2Proof.Machine.execSymDigit3 s
  | .symDigit4 => Sys2Proof.Machine.execSymDigit4 s
  | .symDigit5 => Sys2Proof.Machine.execSymDigit5 s
  | .symDigit6 => Sys2Proof.Machine.execSymDigit6 s
  | .symDigit7 => Sys2Proof.Machine.execSymDigit7 s
  | .symDigit8 => Sys2Proof.Machine.execSymDigit8 s
  | .symDigit9 => Sys2Proof.Machine.execSymDigit9 s
  | .symPlus => Sys2Proof.Machine.execSymPlus s
  | .symSlash => Sys2Proof.Machine.execSymSlash s
  | .symPad => Sys2Proof.Machine.execSymPad s

end Sys2Proof.Machine
end

