-- ==== Sys2Proof/Machine/Block.lean ====
section
/-! DEFINITION. Sys2Proof/Machine/Block.lean: the step of the block, the input ports its argument (10_state.md R22 (b);
42_operations.md R133). -/

namespace Sys2Proof.Machine

/-- The step of the block on one input. The ports are the argument `w`; of `s`, only the registers are the
block's, and the environment beside them is handed on (R22 (b), R133). A word that is no row of the table is
the lookup of a non-member (log entry 4). -/
def stepOn (w : InputWord) (s : State) : Host.Outcome State Fault Refusal :=
  match decode w with
  | .ok i => exec i s
  | .error e => noRow e s

end Sys2Proof.Machine
end

