-- ==== Sys2Proof/Machine/Step.lean ====
section
/-! DEFINITION. Sys2Proof/Machine/Step.lean: one step (42_operations.md R133), and how the host places a word. -/

namespace Sys2Proof.Machine

/-- One step of the closed system: the block steps on what the environment drives, and the environment goes on.
The host's step takes a state alone, so the argument of `stepOn` comes from the environment (log entry 1). -/
def step (s : State) : Host.Outcome State Fault Refusal :=
  stepOn s.nextInput s.takeInput

/-- `s` in which the environment presents the word of a table row next (log entry 7). Bits that are no word
of the table leave `s` as it is. -/
def State.withFetchWord (s : State) (nbits w : Nat) : State :=
  match InputWord.ofTable nbits w with
  | .ok word => s.present [word]
  | .error _ => s

end Sys2Proof.Machine
end

