-- ==== Sys2Proof/Machine/Reference.lean ====
section
/-! DEFINITION. Sys2Proof/Machine/Reference.lean: the spec's second formulations, each claimed equal to the first: the
closed form of the alphabet (30_encoding.md R61), `Classify` from the position bits (R87), the document's
sequential algorithm (41_group_decode.md R114), the cause of a malformed group read from its shape (60_exceptions.md
R141), and the inverse constructions (R119). The machine calls none of them. -/

namespace Sys2Proof.Machine

/-! ### The alphabet in closed form -/

/-- A number as a position, if it is one. -/
def toPosition (n : Nat) : Option Position :=
  if h : n < 65 then some ⟨n, h⟩ else none

/-- Code to position by ranges (R61). -/
def positionByRange (code : Byte) : Option Position :=
  let c := code.toNat
  if 0x41 ≤ c ∧ c ≤ 0x5A then toPosition (c - 0x41)
  else if 0x61 ≤ c ∧ c ≤ 0x7A then toPosition (c - 0x61 + 26)
  else if 0x30 ≤ c ∧ c ≤ 0x39 then toPosition (c - 0x30 + 52)
  else if c = 0x2B then toPosition 62
  else if c = 0x2F then toPosition 63
  else if c = 0x3D then toPosition 64
  else none

/-- Position to code by ranges (R61). -/
def symCodeByRange (i : Position) : Byte :=
  if i.val ≤ 25 then BitVec.ofNat 8 (0x41 + i.val)
  else if i.val ≤ 51 then BitVec.ofNat 8 (0x61 + (i.val - 26))
  else if i.val ≤ 61 then BitVec.ofNat 8 (0x30 + (i.val - 52))
  else if i.val = 62 then 0x2B
  else if i.val = 63 then 0x2F
  else 0x3D

/-! ### Classify from the position bits -/

/-- `pad = q[6]`, `val = q[5:0]` for any found `q` (R87). -/
def classifyByBits (c : Byte) : Lane :=
  match positionOf c with
  | none => { member := false, pad := false, val := 0 }
  | some q => { member := true, pad := (positionBits q)[6], val := (positionBits q).extractLsb' 0 6 }

/-! ### The document's sequential algorithm -/

/-- Step 2 over the positions that are left (R114, with the sentences R102 to R105 quote). `outlen` starts at 3
and drops by one per padding symbol met, so `outlen < 3` says that padding has been met. The result is the
output length and the contributions, or `none` for malformed. -/
def scanSymbols : List Byte → Nat → Option (Nat × List SixBit)
  | [], outlen => some (outlen, [])
  | c :: rest, outlen =>
    match positionOf c with
    | none => none
    | some q =>
      if q = 64 then
        if outlen ≤ 1 then none
        else (scanSymbols rest (outlen - 1)).map fun r => (r.1, 0 :: r.2)
      else if outlen < 3 then none
      else (scanSymbols rest outlen).map fun r => (r.1, (positionBits q).extractLsb' 0 6 :: r.2)

/-- The document's algorithm (R114): step 1, then the scan of step 2, then steps 3 to 5. -/
def decodeGroupInOrder (s0 s1 s2 s3 : Byte) : GroupResult :=
  if positionOf s0 = some 64 ∨ positionOf s1 = some 64 then .malformed
  else
    match scanSymbols [s0, s1, s2, s3] 3 with
    | some (outlen, [p0, p1, p2, p3]) =>
      let v := valueWord p0 p1 p2 p3
      outputMux outlen (candidate0 v) (candidate1 v) (candidate2 v)
    | _ => .malformed

/-! ### The cause of a malformed group, from its shape -/

/-- The table of R141: the cause of a shape. -/
def causeOfShape : List SymbolClass → ErrKind
  | [.data, .data, .data, .data] => .none
  | [.data, .data, .data, .padding] => .none
  | [.data, .data, .padding, .padding] => .none
  | [.padding, _, _, _] => .invalidPaddingPlacement
  | [_, .padding, _, _] => .invalidPaddingPlacement
  | [.data, .data, .padding, .data] => .invalidPaddingPlacement
  | [_, _, _, _] => .invalidCharacter
  | _ => .incompleteTrailingGroup

/-- All 3^4 = 81 shapes (R71). -/
def allShapes : List (List SymbolClass) :=
  let classes : List SymbolClass := [.data, .padding, .nonMember]
  classes.flatMap fun c0 => classes.flatMap fun c1 => classes.flatMap fun c2 => classes.map fun c3 =>
    [c0, c1, c2, c3]

/-! ### The inverse constructions -/

/-- A group: four symbol codes, position 0 first (R8). -/
structure Group where
  s0 : Byte
  s1 : Byte
  s2 : Byte
  s3 : Byte
deriving DecidableEq, Repr

/-- `DecodeGroup` of a group (R113). -/
def Group.decoded (g : Group) : GroupResult := decodeGroup g.s0 g.s1 g.s2 g.s3

/-- The row that decodes a group (R132). -/
def Group.instr (g : Group) : Instr := .decode g.s0 g.s1 g.s2 g.s3

/-- The symbol of a 6-bit value: `SymCode` at that position (R60). -/
def dataSymbol (v : SixBit) : Byte := memRead ⟨v.toNat, by omega⟩

/-- `=`: `SymCode(64)` (R60). -/
def padSymbol : Byte := memRead 64

/-- `e3(x, y, z)` of R119. -/
def encodeThree (x y z : Byte) : Group :=
  { s0 := dataSymbol (x.extractLsb' 2 6)
    s1 := dataSymbol (x.extractLsb' 0 2 ++ y.extractLsb' 4 4)
    s2 := dataSymbol (y.extractLsb' 0 4 ++ z.extractLsb' 6 2)
    s3 := dataSymbol (z.extractLsb' 0 6) }

/-- `e2(x, y)` of R119. -/
def encodeTwo (x y : Byte) : Group :=
  { s0 := dataSymbol (x.extractLsb' 2 6)
    s1 := dataSymbol (x.extractLsb' 0 2 ++ y.extractLsb' 4 4)
    s2 := dataSymbol (y.extractLsb' 0 4 ++ 0#2)
    s3 := padSymbol }

/-- `e1(x)` of R119. -/
def encodeOne (x : Byte) : Group :=
  { s0 := dataSymbol (x.extractLsb' 2 6)
    s1 := dataSymbol (x.extractLsb' 0 2 ++ 0#4)
    s2 := padSymbol
    s3 := padSymbol }

/-- The groups of a byte string: three bytes a group, and a padded last group for one or two bytes over. A
reference encoder for statements about streams; the block does not encode (R4). -/
def encodeBytes : List Byte → List Group
  | x :: y :: z :: rest => encodeThree x y z :: encodeBytes rest
  | [x, y] => [encodeTwo x y]
  | [x] => [encodeOne x]
  | [] => []

end Sys2Proof.Machine
end

