-- ==== Sys2Proof/WellFormed.lean ====
section
/-! DEFINITION. Sys2Proof/WellFormed.lean: what a row and a line must satisfy to have words. -/

namespace Sys2Proof

/-- Every term of `Instr` is well formed: the operands are bare 8-bit ports, every one of the 2^32 groups is
defined, and there is no reserved encoding (R65, R70, R72). -/
def Instr.wellFormed : Instr → Bool := fun _ => true

/-- A `DECODE` line has exactly four symbols (R73, R74); a `STREAM` text has `4n` characters with `n ≥ 1`
(R75): 4 symbols or nothing (R143). -/
def Line.wellFormed : Line → Bool
  | .reset => true
  | .idle => true
  | .decode text => text.length == 4
  | .stream text => 4 ≤ text.length && text.length % 4 == 0

end Sys2Proof
end

