-- ==== Sys2Proof/Machine/Stream.lean ====
section
/-! DEFINITION. Sys2Proof/Machine/Stream.lean: what a run means (42_operations.md R136) and what a line of the textual
notation stands for (30_encoding.md R74, R75). -/

namespace Sys2Proof.Machine

/-! ### Runs -/

/-- The registers in each cycle of `k` steps: one record per rising edge. A symbol on a lane is no edge and
starts no cycle (log entry 3). -/
def cycles : Nat → State → List Registers
  | 0, _ => []
  | k + 1, s =>
    match step s with
    | .next s' =>
      match s.nextInput with
      | .cmd _ => s'.regs :: cycles k s'
      | .sym _ => cycles k s'
    | .fault _ => []
    | .refused _ => []

/-- The cycles of a run from `s` in which the environment presents exactly `ws`. -/
def runOn (s : State) (ws : List InputWord) : List Registers :=
  cycles ws.length (s.present ws)

/-- The chunk on the output ports (R68, R136): the first `OUTLEN` bytes if `VALID` = 1, and nothing if not. -/
def Registers.chunk (r : Registers) : List Byte :=
  if r.valid then [r.out0, r.out1, r.out2].take r.outlen.toNat else []

/-- The decoded stream of a run's cycles (R136). -/
def decodedStream (rs : List Registers) : List Byte := rs.flatMap Registers.chunk

/-- The error count of a run's cycles (R136). -/
def errorCount (rs : List Registers) : Nat := rs.countP Registers.malformed

/-! ### Textual notation -/

/-- The consecutive groups of a text, if its length is a multiple of 4 (R75): 4 symbols or nothing. -/
def groupsOf : List Byte → Option (List Instr)
  | [] => some []
  | c0 :: c1 :: c2 :: c3 :: rest => (groupsOf rest).map fun is => .decode c0 c1 c2 c3 :: is
  | _ => none

/-- The operations a line stands for, one per edge (R74, R75); `none` for a line that is not valid. -/
def lineInstrs : Line → Option (List Instr)
  | .reset => some [.reset]
  | .idle => some [.idle]
  | .decode text => if (Line.decode text).wellFormed then groupsOf text else none
  | .stream text => if (Line.stream text).wellFormed then groupsOf text else none

/-- The command words of a line (R74). -/
def lineWords (l : Line) : Option (List InputWord) := (lineInstrs l).map (List.map encode)

end Sys2Proof.Machine
end

