-- ==== Sys2Proof/Safety.lean ====
section
/-! DEFINITION. Sys2Proof/Safety.lean: what the registers satisfy after every edge (10_state.md R29). -/

namespace Sys2Proof.Machine

/-- Clauses 1 to 4 of R29. Clause 5 speaks of the operation the edge performed and is stated with it. -/
abbrev Registers.Inv (r : Registers) : Prop :=
  ¬(r.valid = true ∧ r.malformed = true) ∧
  (r.valid = true ↔ r.outlen ≠ 0) ∧
  (r.valid = false → r.out0 = 0 ∧ r.out1 = 0 ∧ r.out2 = 0) ∧
  (r.outlen = 1 → r.out1 = 0 ∧ r.out2 = 0) ∧
  (r.outlen = 2 → r.out2 = 0)

/-- The invariant of a run: the registers satisfy R29. -/
abbrev State.Inv (s : State) : Prop := s.regs.Inv

/-- The operation of this edge is `DECODE`: `rst` = 0 and `start` = 1 (R133). -/
abbrev InputPorts.selectsDecode (p : InputPorts) : Prop := p.rst = false ∧ p.start = true

end Sys2Proof.Machine
end

