-- ==== Sys2Proof/Certificates/Slice0/Obligations.lean ====
section
/-! DEFINITION. Sys2Proof/Certificates/Slice0/Obligations.lean: the statements for the provers. -/

open Sys2Proof Sys2Proof.Machine

/-- The 26 rows SYM_A to SYM_Z (R60, R80, R81, R86). The last clause is the completion of the row; that a symbol
alone is run as a step, with no clock edge, is the model's choice (log entry 3). -/
def Obligations.CapitalLetterSymbolsAreLookedUp : Prop :=
  ∀ row ∈ ([(.symUpperA, 0x41, 0), (.symUpperB, 0x42, 1), (.symUpperC, 0x43, 2),
      (.symUpperD, 0x44, 3), (.symUpperE, 0x45, 4), (.symUpperF, 0x46, 5),
      (.symUpperG, 0x47, 6), (.symUpperH, 0x48, 7), (.symUpperI, 0x49, 8),
      (.symUpperJ, 0x4A, 9), (.symUpperK, 0x4B, 10), (.symUpperL, 0x4C, 11),
      (.symUpperM, 0x4D, 12), (.symUpperN, 0x4E, 13), (.symUpperO, 0x4F, 14),
      (.symUpperP, 0x50, 15), (.symUpperQ, 0x51, 16), (.symUpperR, 0x52, 17),
      (.symUpperS, 0x53, 18), (.symUpperT, 0x54, 19), (.symUpperU, 0x55, 20),
      (.symUpperV, 0x56, 21), (.symUpperW, 0x57, 22), (.symUpperX, 0x58, 23),
      (.symUpperY, 0x59, 24), (.symUpperZ, 0x5A, 25)] : List (Instr × Byte × Position)), ∀ s : State,
    encode row.1 = .sym row.2.1 ∧ decode (.sym row.2.1) = .ok row.1 ∧
    positionOf row.2.1 = some row.2.2 ∧ isMember row.2.1 = true ∧
    classify row.2.1 = { member := true, pad := false, val := BitVec.ofNat 6 row.2.2.val } ∧
    exec row.1 s = .next s

/-- The 26 rows SYM_a to SYM_z (R60, R80, R81, R86). The last clause is the completion of the row; that a symbol
alone is run as a step, with no clock edge, is the model's choice (log entry 3). -/
def Obligations.SmallLetterSymbolsAreLookedUp : Prop :=
  ∀ row ∈ ([(.symLowerA, 0x61, 26), (.symLowerB, 0x62, 27), (.symLowerC, 0x63, 28),
      (.symLowerD, 0x64, 29), (.symLowerE, 0x65, 30), (.symLowerF, 0x66, 31),
      (.symLowerG, 0x67, 32), (.symLowerH, 0x68, 33), (.symLowerI, 0x69, 34),
      (.symLowerJ, 0x6A, 35), (.symLowerK, 0x6B, 36), (.symLowerL, 0x6C, 37),
      (.symLowerM, 0x6D, 38), (.symLowerN, 0x6E, 39), (.symLowerO, 0x6F, 40),
      (.symLowerP, 0x70, 41), (.symLowerQ, 0x71, 42), (.symLowerR, 0x72, 43),
      (.symLowerS, 0x73, 44), (.symLowerT, 0x74, 45), (.symLowerU, 0x75, 46),
      (.symLowerV, 0x76, 47), (.symLowerW, 0x77, 48), (.symLowerX, 0x78, 49),
      (.symLowerY, 0x79, 50), (.symLowerZ, 0x7A, 51)] : List (Instr × Byte × Position)), ∀ s : State,
    encode row.1 = .sym row.2.1 ∧ decode (.sym row.2.1) = .ok row.1 ∧
    positionOf row.2.1 = some row.2.2 ∧ isMember row.2.1 = true ∧
    classify row.2.1 = { member := true, pad := false, val := BitVec.ofNat 6 row.2.2.val } ∧
    exec row.1 s = .next s

/-- The 10 rows SYM_0 to SYM_9 (R60, R80, R81, R86). The last clause is the completion of the row; that a symbol
alone is run as a step, with no clock edge, is the model's choice (log entry 3). -/
def Obligations.DigitSymbolsAreLookedUp : Prop :=
  ∀ row ∈ ([(.symDigit0, 0x30, 52), (.symDigit1, 0x31, 53), (.symDigit2, 0x32, 54),
      (.symDigit3, 0x33, 55), (.symDigit4, 0x34, 56), (.symDigit5, 0x35, 57),
      (.symDigit6, 0x36, 58), (.symDigit7, 0x37, 59), (.symDigit8, 0x38, 60),
      (.symDigit9, 0x39, 61)] : List (Instr × Byte × Position)), ∀ s : State,
    encode row.1 = .sym row.2.1 ∧ decode (.sym row.2.1) = .ok row.1 ∧
    positionOf row.2.1 = some row.2.2 ∧ isMember row.2.1 = true ∧
    classify row.2.1 = { member := true, pad := false, val := BitVec.ofNat 6 row.2.2.val } ∧
    exec row.1 s = .next s

/-- The rows SYM_PLUS, SYM_SLASH and SYM_PAD (R60, R80, R81, R86). The last clause is the completion of the row; that
a symbol alone is run as a step, with no clock edge, is the model's choice (log entry 3). -/
def Obligations.PlusSlashAndPadSymbolsAreLookedUp : Prop :=
  ∀ row ∈ ([(.symPlus, 0x2B, 62, { member := true, pad := false, val := 62 }),
      (.symSlash, 0x2F, 63, { member := true, pad := false, val := 63 }),
      (.symPad, 0x3D, 64, { member := true, pad := true, val := 0 })] : List (Instr × Byte × Position × Lane)),
    ∀ s : State,
    encode row.1 = .sym row.2.1 ∧ decode (.sym row.2.1) = .ok row.1 ∧
    positionOf row.2.1 = some row.2.2.1 ∧ isMember row.2.1 = true ∧ classify row.2.1 = row.2.2.2 ∧
    exec row.1 s = .next s

/-- R82: a lookup is total over the 256 codes and calling it changes nothing. That it is a step of its own is the
model's choice (log entries 3 and 4). -/
def Obligations.LoneSymbolStepsWithoutWriting : Prop :=
  ∀ (s : State) (code : Byte) (rest : List InputWord), s.env.inputs = .sym code :: rest →
    step s = .next { regs := s.regs, env := { inputs := rest, edge := s.env.edge } }

/-- R40 and R54: the whole address map is ROM addresses 0 to 64, in alphabet order. The list of cells is the model's
form of it (log entry 10). -/
def Obligations.RomHoldsTheAlphabetAndNothingElse : Prop :=
  alphabetRom.wf ∧ (∀ i : Position, alphabetRom.read i.val = some (symCodeByRange i)) ∧
    ∀ a : Nat, 65 ≤ a → alphabetRom.read a = none

/-- R43: No two ROM entries are equal, so a code is at no more than one address. -/
def Obligations.RomEntriesArePairwiseDifferent : Prop :=
  (∀ i j : Position, memRead i = memRead j → i = j) ∧
    ∀ (c : Byte) (i j : Position), memRead i = c → memRead j = c → i = j

/-- R80: position_of finds the address whose entry equals the code, or NOT_FOUND. -/
def Obligations.PositionOfSearchesTheRom : Prop :=
  (∀ (c : Byte) (i : Position), positionOf c = some i ↔ memRead i = c) ∧
    (∀ c : Byte, positionOf c = none ↔ ∀ i : Position, memRead i ≠ c) ∧
    positionOf 0x51 = some 16 ∧ positionOf 0x3D = some 64 ∧ positionOf 0x23 = none

/-- R83: position_of and SymCode undo each other. -/
def Obligations.LookupAndSymCodeAreInverse : Prop :=
  (∀ i : Position, positionOf (memRead i) = some i) ∧
    ∀ (c : Byte) (i : Position), positionOf c = some i → memRead i = c

/-- R61: The range arithmetic of R61 is the table, in both directions. -/
def Obligations.ClosedFormAgreesWithTheTable : Prop :=
  (∀ c : Byte, positionByRange c = positionOf c) ∧ ∀ i : Position, symCodeByRange i = memRead i

/-- R81: is_member: 65 codes give 1; the 191 others are the ranges of R70. -/
def Obligations.SixtyFiveMembersAndTheNonMemberRanges : Prop :=
  (∀ c : Byte, isMember c = true ↔ positionOf c ≠ none) ∧
    isMember 0x3D = true ∧ isMember 0x41 = true ∧ isMember 0x20 = false ∧
    ((List.range 256).filter fun n => isMember (BitVec.ofNat 8 n)).length = 65 ∧
    ((List.range 256).filter fun n => !isMember (BitVec.ofNat 8 n)).length = 191 ∧
    ∀ c : Byte, isMember c = false ↔
      c.toNat ≤ 0x2A ∨ (0x2C ≤ c.toNat ∧ c.toNat ≤ 0x2E) ∨ (0x3A ≤ c.toNat ∧ c.toNat ≤ 0x3C) ∨
      (0x3E ≤ c.toNat ∧ c.toNat ≤ 0x40) ∨ (0x5B ≤ c.toNat ∧ c.toNat ≤ 0x60) ∨ 0x7B ≤ c.toNat

/-- R63: The lane record: member, pad and val of a symbol. -/
def Obligations.LaneRecordFollowsTheSymbol : Prop :=
  ∀ c : Byte, ((classify c).member = true ↔ ∃ i : Position, memRead i = c) ∧
    ((classify c).pad = true ↔ c = memRead 64) ∧
    (∀ i : Position, memRead i = c → (classify c).val = BitVec.ofNat 6 (i.val % 64)) ∧
    ((classify c).member = false → (classify c).val = 0) ∧
    ¬((classify c).member = false ∧ (classify c).pad = true)

/-- R87: Classify is pad = POS[6], val = POS[5:0] of any found position. -/
def Obligations.ClassifyIsTheSplitOfThePosition : Prop :=
  ∀ c : Byte, classifyByBits c = classify c

/-- R101: Padding at position 0 or 1 makes the group malformed whatever the rest is. -/
def Obligations.HeadPaddingIsMalformed : Prop :=
  ∀ s0 s1 s2 s3 : Byte, ((classify s0).pad || (classify s1).pad) = true → decodeGroup s0 s1 s2 s3 = .malformed

/-- R102: A non-member at any position makes the group malformed. -/
def Obligations.NonMemberAnywhereIsMalformed : Prop :=
  ∀ s0 s1 s2 s3 : Byte,
    (isMember s0 = false ∨ isMember s1 = false ∨ isMember s2 = false ∨ isMember s3 = false) →
    decodeGroup s0 s1 s2 s3 = .malformed

/-- R104: Three or more padding symbols are malformed and no result has length 0. -/
def Obligations.ThreePaddingSymbolsAreMalformed : Prop :=
  ∀ s0 s1 s2 s3 : Byte,
    (3 ≤ padCount (classify s0) (classify s1) (classify s2) (classify s3) →
      decodeGroup s0 s1 s2 s3 = .malformed ∧ headPad (classify s0) (classify s1) = true) ∧
    ∀ (n : BitVec 2) (b0 b1 b2 : Byte), decodeGroup s0 s1 s2 s3 = .ok n b0 b1 b2 → n = 1 ∨ n = 2 ∨ n = 3

/-- R105: A padding symbol followed later by any other symbol is malformed. -/
def Obligations.DataAfterPaddingIsMalformed : Prop :=
  (∀ (g : Fin 4 → Byte) (i j : Fin 4), i < j → g i = 0x3D → g j ≠ 0x3D →
      decodeGroup (g 0) (g 1) (g 2) (g 3) = .malformed) ∧
    ∀ v0 v1 v3 : SixBit,
      let l0 := classify (dataSymbol v0)
      let l1 := classify (dataSymbol v1)
      let l2 := classify 0x3D
      let l3 := classify (dataSymbol v3)
      decodeGroup (dataSymbol v0) (dataSymbol v1) 0x3D (dataSymbol v3) = .malformed ∧ gap l2 l3 = true ∧
      allMember l0 l1 l2 l3 = true ∧ headPad l0 l1 = false ∧ padCount l0 l1 l2 l3 < 3

/-- R106: A group is well formed exactly on DDDD, DDDP and DDPP, with lengths 3, 2 and 1. -/
def Obligations.WellFormedShapesAreExactlyThree : Prop :=
  ∀ s0 s1 s2 s3 : Byte,
    let l0 := classify s0
    let l1 := classify s1
    let l2 := classify s2
    let l3 := classify s3
    let sh := shapeOf s0 s1 s2 s3
    (groupOk l0 l1 l2 l3 = true ↔
      allMember l0 l1 l2 l3 = true ∧ l0.pad = false ∧ l1.pad = false ∧ ¬(l2.pad = true ∧ l3.pad = false)) ∧
    (groupOk l0 l1 l2 l3 = true ↔ decodeGroup s0 s1 s2 s3 ≠ .malformed) ∧
    ((∃ b0 b1 b2, decodeGroup s0 s1 s2 s3 = .ok 3 b0 b1 b2) ↔ sh = [.data, .data, .data, .data]) ∧
    ((∃ b0 b1 b2, decodeGroup s0 s1 s2 s3 = .ok 2 b0 b1 b2) ↔ sh = [.data, .data, .data, .padding]) ∧
    ((∃ b0 b1 b2, decodeGroup s0 s1 s2 s3 = .ok 1 b0 b1 b2) ↔ sh = [.data, .data, .padding, .padding]) ∧
    (decodeGroup s0 s1 s2 s3 = .malformed ↔
      sh ≠ [.data, .data, .data, .data] ∧ sh ≠ [.data, .data, .data, .padding] ∧
      sh ≠ [.data, .data, .padding, .padding])

/-- R66: V is the four 6-bit fields side by side, position 0 on top, and the sum of R115. -/
def Obligations.ValueWordConcatenatesTheFourFields : Prop :=
  ∀ p0 p1 p2 p3 : SixBit,
    valueWord p0 p1 p2 p3 = (p0 ++ p1 ++ p2 ++ p3 : BitVec 24) ∧
    (valueWord p0 p1 p2 p3).toNat = p0.toNat * 2 ^ 18 + p1.toNat * 2 ^ 12 + p2.toNat * 2 ^ 6 + p3.toNat

/-- R67: The three candidate bytes are slices of V, regrouped wire by wire from the 6-bit values. -/
def Obligations.CandidateBytesWireByWire : Prop :=
  (∀ v : ValueWord, candidate0 v = v.extractLsb' 16 8 ∧ candidate1 v = v.extractLsb' 8 8 ∧
      candidate2 v = v.extractLsb' 0 8) ∧
    ∀ p0 p1 p2 p3 : SixBit,
      let v := valueWord p0 p1 p2 p3
      candidate0 v = p0 ++ p1.extractLsb' 4 2 ∧
      candidate1 v = p1.extractLsb' 0 4 ++ p2.extractLsb' 2 4 ∧
      candidate2 v = p2.extractLsb' 0 2 ++ p3

/-- 41_group_decode.md sections 2 and 3 (R110, R111), 42_operations.md section 1 (R132): DECODE of DDDD, DDDP and DDPP: all six registers, bit by bit from the 6-bit values. -/
def Obligations.DecodeWritesTheChunkOfEachLegalShape : Prop :=
  ∀ (s : State) (v0 v1 v2 v3 : SixBit),
    let byte0 : Byte := v0 ++ v1.extractLsb' 4 2
    let byte1 : Byte := v1.extractLsb' 0 4 ++ v2.extractLsb' 2 4
    let byte2 : Byte := v2.extractLsb' 0 2 ++ v3
    exec (.decode (dataSymbol v0) (dataSymbol v1) (dataSymbol v2) (dataSymbol v3)) s = .next
      { regs := { out0 := byte0, out1 := byte1, out2 := byte2, outlen := 3, valid := true, malformed := false }
        env := s.env } ∧
    exec (.decode (dataSymbol v0) (dataSymbol v1) (dataSymbol v2) 0x3D) s = .next
      { regs := { out0 := byte0, out1 := byte1, out2 := 0, outlen := 2, valid := true, malformed := false }
        env := s.env } ∧
    exec (.decode (dataSymbol v0) (dataSymbol v1) 0x3D 0x3D) s = .next
      { regs := { out0 := byte0, out1 := 0, out2 := 0, outlen := 1, valid := true, malformed := false }
        env := s.env }

/-- R132: DECODE writes Ok to VALID, OUTLEN and the bytes, and Malformed to MALFORMED alone. -/
def Obligations.DecodeWritesTheResultOfTheGroup : Prop :=
  ∀ (s : State) (s0 s1 s2 s3 : Byte),
    (∀ (n : BitVec 2) (b0 b1 b2 : Byte), decodeGroup s0 s1 s2 s3 = .ok n b0 b1 b2 →
      exec (.decode s0 s1 s2 s3) s = .next
        { regs := { out0 := b0, out1 := b1, out2 := b2, outlen := n, valid := true, malformed := false }
          env := s.env }) ∧
    (decodeGroup s0 s1 s2 s3 = .malformed →
      exec (.decode s0 s1 s2 s3) s = .next
        { regs := { out0 := 0, out1 := 0, out2 := 0, outlen := 0, valid := false, malformed := true }
          env := s.env })

/-- R146: DECODE of any group outside the three legal shapes: MALFORMED and zeros, nothing more. -/
def Obligations.MalformedGroupWritesOnlyTheFlag : Prop :=
  ∀ (s : State) (s0 s1 s2 s3 : Byte),
    shapeOf s0 s1 s2 s3 ∉ ([[.data, .data, .data, .data], [.data, .data, .data, .padding],
      [.data, .data, .padding, .padding]] : List (List SymbolClass)) →
    ∃ t : State, exec (.decode s0 s1 s2 s3) s = .next t ∧
      t.regs = { out0 := 0, out1 := 0, out2 := 0, outlen := 0, valid := false, malformed := true } ∧
      t.env = s.env ∧ t.regs.chunk = []

/-- R116: Non-canonical padded groups decode like the canonical one. -/
def Obligations.DroppedBitsOfAPaddedGroupAreIgnored : Prop :=
  (∀ v0 v1 w1 : SixBit, v1.extractLsb' 4 2 = w1.extractLsb' 4 2 →
      decodeGroup (dataSymbol v0) (dataSymbol v1) 0x3D 0x3D = decodeGroup (dataSymbol v0) (dataSymbol w1) 0x3D 0x3D ∧
      decodeGroup (dataSymbol v0) (dataSymbol v1) 0x3D 0x3D ≠ .malformed) ∧
    ∀ v0 v1 v2 w2 : SixBit, v2.extractLsb' 2 4 = w2.extractLsb' 2 4 →
      decodeGroup (dataSymbol v0) (dataSymbol v1) (dataSymbol v2) 0x3D
        = decodeGroup (dataSymbol v0) (dataSymbol v1) (dataSymbol w2) 0x3D ∧
      decodeGroup (dataSymbol v0) (dataSymbol v1) (dataSymbol v2) 0x3D ≠ .malformed

/-- R119: e3, e2 and e1 decode to their bytes, and decoding is a bijection on DDDD. -/
def Obligations.InverseConstructionsDecodeToTheirBytes : Prop :=
  (∀ x y z : Byte, (encodeThree x y z).decoded = .ok 3 x y z) ∧
    (∀ x y : Byte, (encodeTwo x y).decoded = .ok 2 x y 0) ∧
    (∀ x : Byte, (encodeOne x).decoded = .ok 1 x 0 0) ∧
    (∀ x y z : Byte, ∃ g : Group, shapeOf g.s0 g.s1 g.s2 g.s3 = [.data, .data, .data, .data] ∧
      g.decoded = .ok 3 x y z ∧
      ∀ g' : Group, shapeOf g'.s0 g'.s1 g'.s2 g'.s3 = [.data, .data, .data, .data] → g'.decoded = .ok 3 x y z →
        g' = g) ∧
    ∀ g : Group, shapeOf g.s0 g.s1 g.s2 g.s3 = [.data, .data, .data, .data] →
      ∃ x y z : Byte, g.decoded = .ok 3 x y z

/-- R121: How many groups are well formed, malformed, and decode to a given chunk. -/
def Obligations.GroupCountsByShapeAndChunk : Prop :=
  Nat.card { g : Group // shapeOf g.s0 g.s1 g.s2 g.s3 = [.data, .data, .data, .data] } = 16777216 ∧
    Nat.card { g : Group // shapeOf g.s0 g.s1 g.s2 g.s3 = [.data, .data, .data, .padding] } = 262144 ∧
    Nat.card { g : Group // shapeOf g.s0 g.s1 g.s2 g.s3 = [.data, .data, .padding, .padding] } = 4096 ∧
    Nat.card { g : Group // g.decoded ≠ .malformed } = 17043456 ∧
    Nat.card { g : Group // g.decoded = .malformed } = 4277923840 ∧
    (∀ x : Byte, Nat.card { g : Group // g.decoded = .ok 1 x 0 0 } = 16) ∧
    (∀ x y : Byte, Nat.card { g : Group // g.decoded = .ok 2 x y 0 } = 4) ∧
    ∀ x y z : Byte, Nat.card { g : Group // g.decoded = .ok 3 x y z } = 1

/-- R114: The document's sequential algorithm equals the parallel pseudocode on every group. That padding has been met
when the length has dropped below 3 is the model's reading of the document's order (log entry 19, DEDUCED). -/
def Obligations.SequentialAlgorithmGivesTheSameResult : Prop :=
  ∀ s0 s1 s2 s3 : Byte, decodeGroupInOrder s0 s1 s2 s3 = decodeGroup s0 s1 s2 s3

/-- R120: ErrKind: its priority, its zero, its shape table and the counts 3, 32 and 46. -/
def Obligations.ErrKindFollowsThePriorityOfCauses : Prop :=
  (∀ s0 s1 s2 s3 : Byte,
      let headIsPad := (classify s0).pad = true ∨ (classify s1).pad = true
      let someNonMember := isMember s0 = false ∨ isMember s1 = false ∨ isMember s2 = false ∨ isMember s3 = false
      let dataAfterPad := (classify s2).pad = true ∧ (classify s3).pad = false
      (headIsPad → (errKind s0 s1 s2 s3).code = 2) ∧
      (¬headIsPad → someNonMember → (errKind s0 s1 s2 s3).code = 1) ∧
      (¬headIsPad → ¬someNonMember → dataAfterPad → (errKind s0 s1 s2 s3).code = 2) ∧
      (¬headIsPad → ¬someNonMember → ¬dataAfterPad → (errKind s0 s1 s2 s3).code = 0) ∧
      ((errKind s0 s1 s2 s3).code ≠ 0 ↔ decodeGroup s0 s1 s2 s3 = .malformed) ∧
      (errKind s0 s1 s2 s3).code ≠ 3 ∧
      errKind s0 s1 s2 s3 = causeOfShape (shapeOf s0 s1 s2 s3)) ∧
    allShapes.Nodup ∧ allShapes.length = 81 ∧
    allShapes.countP (fun sh => (causeOfShape sh).code == 0) = 3 ∧
    allShapes.countP (fun sh => (causeOfShape sh).code == 1) = 32 ∧
    allShapes.countP (fun sh => (causeOfShape sh).code == 2) = 46 ∧
    allShapes.countP (fun sh => (causeOfShape sh).code == 3) = 0

/-- R130: RESET: all six registers to zero, whatever start and the symbols are. -/
def Obligations.ResetEdgeClearsEveryRegister : Prop :=
  ∀ s : State,
    exec .reset s = .next
      { regs := { out0 := 0, out1 := 0, out2 := 0, outlen := 0, valid := false, malformed := false }
        env := s.env } ∧
    ∀ (start : Bool) (g : GroupWord) (rest : List InputWord), s.env.inputs = .cmd (commandWord true start g) :: rest →
      step s = .next
        { regs := { out0 := 0, out1 := 0, out2 := 0, outlen := 0, valid := false, malformed := false }
          env := { inputs := rest, edge := s.env.edge + 1 } }

/-- R131: IDLE: all six registers to zero, whatever the symbols are. -/
def Obligations.IdleEdgeClearsEveryRegister : Prop :=
  ∀ s : State,
    exec .idle s = .next
      { regs := { out0 := 0, out1 := 0, out2 := 0, outlen := 0, valid := false, malformed := false }
        env := s.env } ∧
    exec .idle s = exec .reset s ∧
    ∀ (g : GroupWord) (rest : List InputWord), s.env.inputs = .cmd (commandWord false false g) :: rest →
      step s = .next
        { regs := { out0 := 0, out1 := 0, out2 := 0, outlen := 0, valid := false, malformed := false }
          env := { inputs := rest, edge := s.env.edge + 1 } }

/-- R133: One step is Next of R133 on the sampled ports. -/
def Obligations.StepAppliesNextToTheSampledInputs : Prop :=
  (∀ (s : State) (p : InputPorts) (rest : List InputWord), s.env.inputs = .cmd p.toWord :: rest →
      step s = .next { regs := nextRegisters p, env := { inputs := rest, edge := s.env.edge + 1 } }) ∧
    (∀ (start : Bool) (s0 s1 s2 s3 : Byte), nextRegisters ⟨true, start, s0, s1, s2, s3⟩ = Registers.zero) ∧
    (∀ s0 s1 s2 s3 : Byte, nextRegisters ⟨false, false, s0, s1, s2, s3⟩ = Registers.zero) ∧
    ∀ s0 s1 s2 s3 : Byte,
      (∀ (n : BitVec 2) (b0 b1 b2 : Byte), decodeGroup s0 s1 s2 s3 = .ok n b0 b1 b2 →
        nextRegisters ⟨false, true, s0, s1, s2, s3⟩ =
          { out0 := b0, out1 := b1, out2 := b2, outlen := n, valid := true, malformed := false }) ∧
      (decodeGroup s0 s1 s2 s3 = .malformed → nextRegisters ⟨false, true, s0, s1, s2, s3⟩ =
        { out0 := 0, out1 := 0, out2 := 0, outlen := 0, valid := false, malformed := true })

/-- R133, in the model's own terms: the input list and the edge number are the model's (log entries 1, 2 and 5). -/
def Obligations.StepRunsTheDecodedRow : Prop :=
  ∀ (s : State) (i : Instr), decode s.nextInput = .ok i →
    step s = exec i s.takeInput ∧ s.takeInput.regs = s.regs ∧ s.takeInput.env.inputs = s.env.inputs.tail ∧
    (∀ cw, s.nextInput = .cmd cw → s.takeInput.env.edge = s.env.edge + 1) ∧
    ∀ code, s.nextInput = .sym code → s.takeInput.env.edge = s.env.edge

/-- R28: Two states given the same command word have the same registers after the edge. -/
def Obligations.RegistersDependOnTheSampledInputsAlone : Prop :=
  ∀ (s t : State) (cw : CommandWord), s.nextInput = .cmd cw → t.nextInput = .cmd cw →
    ∃ s' t' : State, step s = .next s' ∧ step t = .next t' ∧ s'.regs = t'.regs

/-- R29: The five invariants of R29 hold after every edge from every state. -/
def Obligations.RegistersAreLegalAfterEveryEdge : Prop :=
  ∀ (s s' : State) (cw : CommandWord), s.nextInput = .cmd cw → step s = .next s' →
    ¬(s'.regs.valid = true ∧ s'.regs.malformed = true) ∧
    (s'.regs.valid = true ↔ s'.regs.outlen ≠ 0) ∧
    (s'.regs.valid = false → s'.regs.out0 = 0 ∧ s'.regs.out1 = 0 ∧ s'.regs.out2 = 0) ∧
    (s'.regs.outlen = 1 → s'.regs.out1 = 0 ∧ s'.regs.out2 = 0) ∧ (s'.regs.outlen = 2 → s'.regs.out2 = 0) ∧
    ((s'.regs.valid = false ∧ s'.regs.malformed = false) ↔ (cw[33] = true ∨ cw[32] = false)) ∧
    ((cw[33] = true ∨ cw[32] = false) → s'.regs =
      { out0 := 0, out1 := 0, out2 := 0, outlen := 0, valid := false, malformed := false })

/-- Clauses 1 to 4 of R29 as an invariant of the model's step. Steps without an edge and free inputs are the model's own
(log entries 2 and 3). -/
def Obligations.EveryStepKeepsTheInvariant : Prop :=
  ∀ s s' : State, s.Inv → step s = .next s' → s'.Inv

/-- R30: The reset state has every register zero and meets the invariant. -/
def Obligations.ResetStateIsZeroAndMeetsTheInvariant : Prop :=
  State.reset.regs = { out0 := 0, out1 := 0, out2 := 0, outlen := 0, valid := false, malformed := false } ∧
    State.reset.Inv ∧ ∀ s : State, ∃ t : State, exec .reset s = .next t ∧ t.regs = State.reset.regs

/-- 10_state.md section 5 (the reachable states after R29), 41_group_decode.md section 6 (R119): Exactly these register states can follow an edge. -/
def Obligations.ReachableRegisterStatesExactly : Prop :=
  ∀ r : Registers, (∃ p : InputPorts, nextRegisters p = r) ↔
    r = { out0 := 0, out1 := 0, out2 := 0, outlen := 0, valid := false, malformed := false } ∨
    r = { out0 := 0, out1 := 0, out2 := 0, outlen := 0, valid := false, malformed := true } ∨
    (r.valid = true ∧ r.malformed = false ∧
      (r.outlen = 3 ∨ (r.outlen = 2 ∧ r.out2 = 0) ∨ (r.outlen = 1 ∧ r.out1 = 0 ∧ r.out2 = 0)))

/-- R171 and R133: no edge on a presented command word stops the machine. The other steps are the model's own: a
symbol alone on a lane (log entry 3), a non-member alone (log entry 4) and an edge with nothing presented (log
entry 2). -/
def Obligations.EveryStepAnswersANextState : Prop :=
  ∀ s : State, ∃ t : State, step s = .next t

/-- R23: every register is written at every edge; R82: a lookup changes nothing. The frame of all 68 rows. -/
def Obligations.ExecFrame : Prop :=
  ∀ (i : Instr) (s t : State), exec i s = .next t →
    t.env = s.env ∧
    (∀ code, encode i = .sym code → t.regs = s.regs) ∧
    ∀ cw, encode i = .cmd cw → ∀ r : Registers, exec i (s.writeRegisters r) = .next t

/-- R31: Any power-up pattern is possible and none survives the first edge. -/
def Obligations.PowerUpDrawIsForgottenAtTheFirstEdge : Prop :=
  (∀ d : OutputRecord, (State.powerUpWith d).regs.record = d) ∧
    (∃ d : OutputRecord, State.powerUp = State.powerUpWith d) ∧
    ∀ (d d' : OutputRecord) (cw : CommandWord), ∃ t : State,
      step ((State.powerUpWith d).present [.cmd cw]) = .next t ∧
      step ((State.powerUpWith d').present [.cmd cw]) = .next t

/-- R64, R65 and R69: decoding what is encoded gives the row back, with every operand. Encoding what a SYM or DECODE word
decodes to gives the word back; of a RESET word it gives back CW[33] and of an IDLE word CW[33] and CW[32], the
bits that select them (the ignored bits are written as 0: log entry 13). -/
def Obligations.DecodeOfEncodeIsTheRow : Prop :=
  (∀ i : Instr, decode (encode i) = .ok i) ∧
    (∀ (code : Byte) (i : Instr), decode (.sym code) = .ok i → encode i = .sym code) ∧
    (∀ (cw : CommandWord) (s0 s1 s2 s3 : Byte), decode (.cmd cw) = .ok (.decode s0 s1 s2 s3) →
      encode (.decode s0 s1 s2 s3) = .cmd cw) ∧
    (∀ cw : CommandWord, decode (.cmd cw) = .ok .reset → ∃ cw', encode .reset = .cmd cw' ∧ cw'[33] = cw[33]) ∧
    ∀ cw : CommandWord, decode (.cmd cw) = .ok .idle →
      ∃ cw', encode .idle = .cmd cw' ∧ cw'[33] = cw[33] ∧ cw'[32] = cw[32]

/-- R65: The operation select over all 2^34 command words, by the masks and matches of R65. -/
def Obligations.OperationSelectFollowsMaskAndMatch : Prop :=
  ∀ cw : CommandWord,
    (decode (.cmd cw) = .ok .reset ↔ cw &&& 0x200000000 = 0x200000000) ∧
    (decode (.cmd cw) = .ok .idle ↔ cw &&& 0x300000000 = 0) ∧
    (∀ s0 s1 s2 s3 : Byte, decode (.cmd cw) = .ok (.decode s0 s1 s2 s3) ↔
      cw &&& 0x300000000 = 0x100000000 ∧ s0 = cw.extractLsb' 24 8 ∧ s1 = cw.extractLsb' 16 8 ∧
      s2 = cw.extractLsb' 8 8 ∧ s3 = cw.extractLsb' 0 8) ∧
    (cw &&& 0x200000000 = 0x200000000 ∨ cw &&& 0x300000000 = 0 ∨ cw &&& 0x300000000 = 0x100000000)

/-- 30_encoding.md section 5 (R69): A decoded word meets the mask and match of its row and of no other. -/
def Obligations.DecodedWordsMeetTheirOwnRowOnly : Prop :=
  (∀ (w : InputWord) (i : Instr), decode w = .ok i → (rowPattern i).matchesBits w.bits.1 w.bits.2 = true) ∧
    ∀ (width w : Nat) (i j : Instr), (rowPattern i).matchesBits width w = true →
      (rowPattern j).matchesBits width w = true → rowPattern i = rowPattern j

/-- Words of R60, R65 and R74 decode to their rows. That a command word is read from five bytes, and that one with a 1
above bit 33 is refused (the last clause), is the model's choice (log entry 8, DESIGN CHOICE). -/
def Obligations.WordsOfTheSpecDecodeToTheirRows : Prop :=
  decodeTableWord 40 0x200000000 = some .reset ∧ decodeTableWord 40 0x351554A44 = some .reset ∧
    decodeTableWord 40 0x000000000 = some .idle ∧ decodeTableWord 40 0x051554A44 = some .idle ∧
    decodeTableWord 40 0x151554A44 = some (.decode 0x51 0x55 0x4A 0x44) ∧
    decodeTableWord 40 0x151510A3D = some (.decode 0x51 0x51 0x0A 0x3D) ∧
    decodeTableWord 8 0x41 = some .symUpperA ∧ decodeTableWord 8 0x7A = some .symLowerZ ∧
    decodeTableWord 8 0x30 = some .symDigit0 ∧ decodeTableWord 8 0x2F = some .symSlash ∧
    decodeTableWord 8 0x3D = some .symPad ∧ decodeTableWord 8 0x23 = none ∧ decodeTableWord 8 0xC1 = none ∧
    decodeTableWord 40 0x400000000 = none

/-- R64: The group word and the command word carry each port in its own bits. -/
def Obligations.GroupWordFields : Prop :=
  (∀ s0 s1 s2 s3 : Byte,
      let g := groupWord s0 s1 s2 s3
      g.extractLsb' 24 8 = s0 ∧ g.extractLsb' 16 8 = s1 ∧ g.extractLsb' 8 8 = s2 ∧ g.extractLsb' 0 8 = s3) ∧
    groupWord 0x51 0x55 0x49 0x3D = 0x5155493D ∧
    (∀ (rst start : Bool) (g : GroupWord),
      let cw := commandWord rst start g
      cw[33] = rst ∧ cw[32] = start ∧ cw.extractLsb' 0 32 = g) ∧
    (∀ p : InputPorts, InputPorts.ofWord p.toWord = p) ∧ ∀ cw : CommandWord, (InputPorts.ofWord cw).toWord = cw

/-- R68: The 28-bit output record carries each register in its own bits. -/
def Obligations.OutputRecordFields : Prop :=
  (∀ r : Registers, r.record[27] = r.valid ∧ r.record[26] = r.malformed ∧ r.record.extractLsb' 24 2 = r.outlen ∧
      r.record.extractLsb' 16 8 = r.out0 ∧ r.record.extractLsb' 8 8 = r.out1 ∧ r.record.extractLsb' 0 8 = r.out2 ∧
      Registers.ofRecord r.record = r ∧
      (r.valid = true → r.outlen = 1 → r.chunk = [r.out0]) ∧
      (r.valid = true → r.outlen = 2 → r.chunk = [r.out0, r.out1]) ∧
      (r.valid = true → r.outlen = 3 → r.chunk = [r.out0, r.out1, r.out2]) ∧
      (r.valid = false → r.chunk = [])) ∧
    (∀ w : OutputRecord, (Registers.ofRecord w).record = w) ∧
    (decodeGroup 0x51 0x55 0x4A 0x44).registers.record = 0xB414243 ∧
    (decodeGroup 0x51 0x51 0x3D 0x3D).registers.record = 0x9410000 ∧
    GroupResult.malformed.registers.record = 0x4000000 ∧ Registers.zero.record = 0

/-- R75: STREAM of 4n characters is n DECODE lines; any other text is no line. The last clause, on DECODE lines, rests on
R74 and on the model's form of a line (log entry 18, DESIGN CHOICE). -/
def Obligations.StreamLineExpandsToConsecutiveDecodes : Prop :=
  (∀ text : List Byte, lineInstrs (.stream text) = none ↔ ¬∃ n, 1 ≤ n ∧ text.length = 4 * n) ∧
    (∀ (text : List Byte) (is : List Instr), lineInstrs (.stream text) = some is →
      text.length = 4 * is.length ∧
      ∀ j, j < is.length → ∃ c0 c1 c2 c3 : Byte, text[4 * j]? = some c0 ∧ text[4 * j + 1]? = some c1 ∧
        text[4 * j + 2]? = some c2 ∧ text[4 * j + 3]? = some c3 ∧ is[j]? = some (.decode c0 c1 c2 c3)) ∧
    ∀ text : List Byte, (∃ is, lineInstrs (.decode text) = some is) ↔ text.length = 4

/-- R119 carried to runs (R136): the document's round trip with a reference encoder, for byte strings of every length. -/
def Obligations.StreamOfEncodedBytesIsTheBytes : Prop :=
  ∀ (s : State) (bytes : List Byte),
    let run := runOn s ((encodeBytes bytes).map fun g => encode g.instr)
    decodedStream run = bytes ∧ errorCount run = 0 ∧ run.length = (encodeBytes bytes).length

/-- 42_operations.md section 2 (R136): A run of DECODE edges: stream and error count, group by group. -/
def Obligations.RunOfGroupsReportsEachGroup : Prop :=
  ∀ (s : State) (gs : List Group),
    let run := runOn s (gs.map fun g => encode g.instr)
    run.length = gs.length ∧
    decodedStream run = (gs.map fun g => match g.decoded with
      | .ok n b0 b1 b2 => [b0, b1, b2].take n.toNat
      | .malformed => []).flatten ∧
    errorCount run = gs.countP fun g => g.decoded == .malformed

/-- R152 and R118: splitting any list of inputs over two instances changes nothing. A lone symbol among them starts no
cycle, which is the model's choice (log entry 3). -/
def Obligations.SplitRunsOnTwoInstancesGiveTheSameStream : Prop :=
  ∀ (s t u : State) (ws vs : List InputWord),
    runOn s (ws ++ vs) = runOn t ws ++ runOn u vs ∧
    decodedStream (runOn s (ws ++ vs)) = decodedStream (runOn t ws) ++ decodedStream (runOn u vs) ∧
    errorCount (runOn s (ws ++ vs)) = errorCount (runOn t ws) + errorCount (runOn u vs)

/-- 42_operations.md sections 1 and 2 (R130, R131, R136): IDLE and RESET edges anywhere in a run change neither stream nor error count. -/
def Obligations.IdleAndResetEdgesAddNothingToTheStream : Prop :=
  ∀ (s : State) (cws : List CommandWord),
    let kept := cws.filter fun cw => !cw[33] && cw[32]
    decodedStream (runOn s (cws.map .cmd)) = decodedStream (runOn s (kept.map .cmd)) ∧
    errorCount (runOn s (cws.map .cmd)) = errorCount (runOn s (kept.map .cmd))

/-- R22 (b) and R133: the ports are the argument of the block's step. The environment beside the block, and the step on a
symbol alone, are the model's own (log entries 1 and 3). -/
def Obligations.BlockStepTakesThePortsAsArguments : Prop :=
  ∀ (r : Registers) (e : Environment),
    (∀ p : InputPorts, stepOn (.cmd p.toWord) { regs := r, env := e } = .next { regs := nextRegisters p, env := e }) ∧
    (∀ code : Byte, stepOn (.sym code) { regs := r, env := e } = .next { regs := r, env := e }) ∧
    step { regs := r, env := e } = stepOn e.driven { regs := r, env := e.advance }

/-- R28: S_after(k) = Next(inputs(k)) for every edge k of a run. -/
def Obligations.RunOfEdgesIsNextOfEachEdgesPorts : Prop :=
  ∀ (s : State) (ps : List InputPorts), runOn s (ps.map fun p => .cmd p.toWord) = ps.map nextRegisters
end

