-- ==== Sys2Proof/Laws/Lookup.lean ====
section
/-! SUPPORT. Sys2Proof/Laws/Lookup.lean: the ROM keeps its canonical form, and what a lookup can answer. -/

namespace Sys2Proof.Machine

/-- The ROM is in canonical form. The only memory primitive is the read, which leaves it so. -/
theorem alphabetRom_wf : alphabetRom.wf := by decide

/-- A found position is the address of an entry equal to the code. -/
theorem memRead_of_positionOf {c : Byte} {i : Position} (h : positionOf c = some i) : memRead i = c := by
  simpa [positionOf] using List.find?_some h

/-- If no position is found, no entry equals the code. -/
theorem memRead_ne_of_positionOf {c : Byte} (h : positionOf c = none) (i : Position) : memRead i ≠ c := by
  simpa using List.find?_eq_none.mp h i (List.mem_finRange i)

theorem positionOf_padSymbol : positionOf 0x3D = some 64 := by decide

theorem classify_padSymbol : classify 0x3D = { member := true, pad := true, val := 0 } := by decide

theorem classOf_padSymbol : classOf 0x3D = .padding := by decide

theorem padSymbol_eq : padSymbol = 0x3D := by decide

theorem classify_dataSymbol (v : SixBit) :
    classify (dataSymbol v) = { member := true, pad := false, val := v } := by
  revert v; decide

theorem classOf_dataSymbol (v : SixBit) : classOf (dataSymbol v) = .data := by
  revert v; decide

theorem dataSymbol_ne_padSymbol (v : SixBit) : dataSymbol v ≠ 0x3D := by
  revert v; decide

/-- What one lane can make of a code: a data symbol with its value, the padding symbol, or a non-member. -/
theorem lane_cases (c : Byte) :
    (∃ v, c = dataSymbol v ∧ classOf c = .data ∧ classify c = { member := true, pad := false, val := v }) ∨
    (c = 0x3D ∧ classOf c = .padding ∧ classify c = { member := true, pad := true, val := 0 }) ∨
    (c ≠ 0x3D ∧ classOf c = .nonMember ∧ classify c = { member := false, pad := false, val := 0 }) := by
  cases h : positionOf c with
  | none =>
    refine .inr (.inr ⟨?_, ?_, ?_⟩)
    · rintro rfl; rw [positionOf_padSymbol] at h; cases h
    · simp [classOf, h]
    · simp [classify, h]
  | some q =>
    have hc := memRead_of_positionOf h
    by_cases hq : q = 64
    · subst hq
      obtain rfl : c = 0x3D := by rw [← hc]; decide
      exact .inr (.inl ⟨rfl, classOf_padSymbol, classify_padSymbol⟩)
    · have hlt : q.val < 64 := by have := q.isLt; have : q.val ≠ 64 := fun e => hq (Fin.ext e); omega
      have hd : c = dataSymbol (BitVec.ofNat 6 q.val) := by
        rw [← hc]; unfold dataSymbol; congr 1; apply Fin.ext; simp; omega
      refine .inl ⟨_, hd, ?_, ?_⟩
      · rw [hd]; exact classOf_dataSymbol _
      · rw [hd]; exact classify_dataSymbol _

end Sys2Proof.Machine
end

