-- ==== Sys2Proof/Laws/Group.lean ====
section
/-! SUPPORT. Sys2Proof/Laws/Group.lean: the regrouper bit by bit, and the only results `DecodeGroup` can have. -/

namespace Sys2Proof.Machine

theorem getLsbD_valueWord (p0 p1 p2 p3 : SixBit) (i : Nat) : (valueWord p0 p1 p2 p3).getLsbD i =
    if i < 6 then p3.getLsbD i else if i < 12 then p2.getLsbD (i - 6)
    else if i < 18 then p1.getLsbD (i - 12) else p0.getLsbD (i - 18) := by
  have beyond : ∀ (p : SixBit) (j : Nat), 6 ≤ j → p.getLsbD j = false := fun p j h => BitVec.getLsbD_of_ge p j h
  by_cases h24 : i < 24
  · unfold valueWord
    simp only [BitVec.getLsbD_or, BitVec.getLsbD_shiftLeft, BitVec.getLsbD_setWidth]
    split
    · simp [-BitVec.getLsbD_eq_getElem, show i < 18 by omega, show i < 12 by omega, show i < 24 by omega, *]
    · split
      · simp [-BitVec.getLsbD_eq_getElem, show i < 18 by omega, show i < 24 by omega, show i - 6 < 24 by omega,
          beyond p3 i (by omega), *]
      · split
        · simp [-BitVec.getLsbD_eq_getElem, show i < 24 by omega, show i - 12 < 24 by omega,
            beyond p3 i (by omega), beyond p2 (i - 6) (by omega), *]
        · simp [-BitVec.getLsbD_eq_getElem, show i < 24 by omega, show i - 18 < 24 by omega,
            beyond p3 i (by omega), beyond p2 (i - 6) (by omega), beyond p1 (i - 12) (by omega), *]
  · rw [BitVec.getLsbD_of_ge _ _ (by omega), if_neg (by omega), if_neg (by omega), if_neg (by omega),
      beyond p0 _ (by omega)]

theorem getLsbD_byteMask (i : Nat) (h : i < 8) : (0xFF#8).getLsbD i = true := by
  have : ∀ j : Fin 8, (0xFF#8).getLsbD j.val = true := by decide
  exact this ⟨i, h⟩

theorem getLsbD_candidate0 (v : ValueWord) (i : Nat) (h : i < 8) : (candidate0 v).getLsbD i = v.getLsbD (16 + i) := by
  simp [-BitVec.getLsbD_eq_getElem, candidate0, h, getLsbD_byteMask]

theorem getLsbD_candidate1 (v : ValueWord) (i : Nat) (h : i < 8) : (candidate1 v).getLsbD i = v.getLsbD (8 + i) := by
  simp [-BitVec.getLsbD_eq_getElem, candidate1, h, getLsbD_byteMask]

theorem getLsbD_candidate2 (v : ValueWord) (i : Nat) (h : i < 8) : (candidate2 v).getLsbD i = v.getLsbD i := by
  simp [-BitVec.getLsbD_eq_getElem, candidate2, h, getLsbD_byteMask]

/-- The only results `DecodeGroup` can have: a chunk on each of the three legal shapes, `Malformed` on every
other shape. -/
theorem decodeGroup_cases (s0 s1 s2 s3 : Byte) :
    (∃ v0 v1 v2 v3, s0 = dataSymbol v0 ∧ s1 = dataSymbol v1 ∧ s2 = dataSymbol v2 ∧ s3 = dataSymbol v3 ∧
      decodeGroup s0 s1 s2 s3 = .ok 3 (candidate0 (valueWord v0 v1 v2 v3)) (candidate1 (valueWord v0 v1 v2 v3))
        (candidate2 (valueWord v0 v1 v2 v3))) ∨
    (∃ v0 v1 v2, s0 = dataSymbol v0 ∧ s1 = dataSymbol v1 ∧ s2 = dataSymbol v2 ∧ s3 = 0x3D ∧
      decodeGroup s0 s1 s2 s3 = .ok 2 (candidate0 (valueWord v0 v1 v2 0)) (candidate1 (valueWord v0 v1 v2 0)) 0) ∨
    (∃ v0 v1, s0 = dataSymbol v0 ∧ s1 = dataSymbol v1 ∧ s2 = 0x3D ∧ s3 = 0x3D ∧
      decodeGroup s0 s1 s2 s3 = .ok 1 (candidate0 (valueWord v0 v1 0 0)) 0 0) ∨
    (shapeOf s0 s1 s2 s3 ≠ [.data, .data, .data, .data] ∧ shapeOf s0 s1 s2 s3 ≠ [.data, .data, .data, .padding] ∧
      shapeOf s0 s1 s2 s3 ≠ [.data, .data, .padding, .padding] ∧ decodeGroup s0 s1 s2 s3 = .malformed) := by
  obtain ⟨v0, e0, c0, k0⟩ | ⟨e0, c0, k0⟩ | ⟨e0, c0, k0⟩ := lane_cases s0 <;>
  obtain ⟨v1, e1, c1, k1⟩ | ⟨e1, c1, k1⟩ | ⟨e1, c1, k1⟩ := lane_cases s1 <;>
  obtain ⟨v2, e2, c2, k2⟩ | ⟨e2, c2, k2⟩ | ⟨e2, c2, k2⟩ := lane_cases s2 <;>
  obtain ⟨v3, e3, c3, k3⟩ | ⟨e3, c3, k3⟩ | ⟨e3, c3, k3⟩ := lane_cases s3
  case inl.inl.inl.inl =>
    exact .inl ⟨v0, v1, v2, v3, e0, e1, e2, e3, by
      simp [decodeGroup, k0, k1, k2, k3, groupOk, allMember, headPad, gap, chunkLength, outputMux]⟩
  case inl.inl.inl.inr.inl =>
    exact .inr (.inl ⟨v0, v1, v2, e0, e1, e2, e3, by
      simp [decodeGroup, k0, k1, k2, k3, groupOk, allMember, headPad, gap, chunkLength, outputMux]⟩)
  case inl.inl.inr.inl.inr.inl =>
    exact .inr (.inr (.inl ⟨v0, v1, e0, e1, e2, e3, by
      simp [decodeGroup, k0, k1, k2, k3, groupOk, allMember, headPad, gap, chunkLength, outputMux]⟩))
  all_goals
    refine .inr (.inr (.inr ⟨?_, ?_, ?_, ?_⟩))
    · simp [shapeOf, c0, c1, c2, c3]
    · simp [shapeOf, c0, c1, c2, c3]
    · simp [shapeOf, c0, c1, c2, c3]
    · simp [decodeGroup, k0, k1, k2, k3, groupOk, allMember, headPad, gap]

end Sys2Proof.Machine
end

