-- ==== Sys2Proof/Laws/Words.lean ====
section
/-! SUPPORT. Sys2Proof/Laws/Words.lean: the fields of a packed word, bit by bit. -/

namespace Sys2Proof.Machine

theorem getLsbD_groupWord (a b c d : Byte) (i : Nat) : (groupWord a b c d).getLsbD i =
    if i < 8 then d.getLsbD i else if i < 16 then c.getLsbD (i - 8)
    else if i < 24 then b.getLsbD (i - 16) else a.getLsbD (i - 24) := by
  refine (@BitVec.getLsbD_append 24 8 i (a ++ b ++ c) d).trans ?_
  rw [@BitVec.getLsbD_append 16 8 (i - 8) (a ++ b) c, @BitVec.getLsbD_append 8 8 (i - 8 - 8) a b]
  by_cases h8 : i < 8
  · simp [h8]
  by_cases h16 : i < 16
  · simp [h8, h16, show i - 8 < 8 by omega]
  by_cases h24 : i < 24
  · simp [h8, h16, h24, show ¬ i - 8 < 8 by omega, show i - 8 - 8 = i - 16 by omega, show i - 16 < 8 by omega]
  · simp [h8, h16, h24, show ¬ i - 8 < 8 by omega, show i - 8 - 8 = i - 16 by omega,
      show ¬ i - 16 < 8 by omega, show i - 16 - 8 = i - 24 by omega]

theorem getLsbD_commandWord (r s : Bool) (g : GroupWord) (i : Nat) : (commandWord r s g).getLsbD i =
    if i < 32 then g.getLsbD i else if i = 32 then s else if i = 33 then r else false := by
  refine (@BitVec.getLsbD_append 2 32 i (BitVec.ofBool r ++ BitVec.ofBool s) g).trans ?_
  rw [@BitVec.getLsbD_append 1 1 (i - 32) (BitVec.ofBool r) (BitVec.ofBool s)]
  by_cases h : i < 32
  · simp [h]
  by_cases h1 : i = 32
  · subst h1; simp
  by_cases h2 : i = 33
  · subst h2; simp
  · simp [h, h1, h2, show ¬ i - 32 < 1 by omega, show i - 32 - 1 ≠ 0 by omega]

@[simp] theorem commandRst_commandWord (r s : Bool) (g : GroupWord) : commandRst (commandWord r s g) = r := by
  have := getLsbD_commandWord r s g 33
  simpa [commandRst] using this

@[simp] theorem commandStart_commandWord (r s : Bool) (g : GroupWord) :
    commandStart (commandWord r s g) = s := by
  have := getLsbD_commandWord r s g 32
  simpa [commandStart] using this

@[simp] theorem commandSym0_commandWord (r s : Bool) (a b c d : Byte) :
    commandSym0 (commandWord r s (groupWord a b c d)) = a := by
  apply BitVec.eq_of_getLsbD_eq
  intro i h
  rw [commandSym0, BitVec.getLsbD_extractLsb', getLsbD_commandWord, getLsbD_groupWord]
  simp [-BitVec.getLsbD_eq_getElem, h, show 24 + i < 32 by omega, show ¬ 24 + i < 8 by omega,
    show ¬ 24 + i < 16 by omega]

@[simp] theorem commandSym1_commandWord (r s : Bool) (a b c d : Byte) :
    commandSym1 (commandWord r s (groupWord a b c d)) = b := by
  apply BitVec.eq_of_getLsbD_eq
  intro i h
  rw [commandSym1, BitVec.getLsbD_extractLsb', getLsbD_commandWord, getLsbD_groupWord]
  simp [-BitVec.getLsbD_eq_getElem, h, show 16 + i < 32 by omega, show ¬ 16 + i < 8 by omega,
    show 16 + i < 24 by omega]

@[simp] theorem commandSym2_commandWord (r s : Bool) (a b c d : Byte) :
    commandSym2 (commandWord r s (groupWord a b c d)) = c := by
  apply BitVec.eq_of_getLsbD_eq
  intro i h
  rw [commandSym2, BitVec.getLsbD_extractLsb', getLsbD_commandWord, getLsbD_groupWord]
  simp [-BitVec.getLsbD_eq_getElem, h, show 8 + i < 32 by omega, show 8 + i < 16 by omega]

@[simp] theorem commandSym3_commandWord (r s : Bool) (a b c d : Byte) :
    commandSym3 (commandWord r s (groupWord a b c d)) = d := by
  apply BitVec.eq_of_getLsbD_eq
  intro i h
  rw [commandSym3, BitVec.getLsbD_extractLsb', getLsbD_commandWord, getLsbD_groupWord]
  simp [-BitVec.getLsbD_eq_getElem, h, show i < 32 by omega]

/-- Every command word is its two control bits over its four symbols. -/
theorem commandWord_fields (cw : CommandWord) :
    commandWord (commandRst cw) (commandStart cw)
      (groupWord (commandSym0 cw) (commandSym1 cw) (commandSym2 cw) (commandSym3 cw)) = cw := by
  apply BitVec.eq_of_getLsbD_eq
  intro i h
  rw [getLsbD_commandWord, getLsbD_groupWord]
  simp only [commandSym0, commandSym1, commandSym2, commandSym3, BitVec.getLsbD_extractLsb', commandRst, commandStart]
  split
  · split
    · simp_all
    · split
      · simp [show i - 8 < 8 by omega, show 8 + (i - 8) = i by omega]
      · split
        · simp [show i - 16 < 8 by omega, show 16 + (i - 16) = i by omega]
        · simp [show i - 24 < 8 by omega, show 24 + (i - 24) = i by omega]
  · split
    · subst_vars; simp
    · obtain rfl : i = 33 := by omega
      simp

end Sys2Proof.Machine
end

