-- ==== Sys2Proof/Laws/PerInstr.lean ====
section
/-! SUPPORT. Sys2Proof/Laws/PerInstr.lean: per row of the table, its encoding carries the row's own width, mask
and match (30_encoding.md R69). -/

namespace Sys2Proof.Laws

/-- The words the encoder writes for `i` are words of `i`'s row of the opcode table. -/
def EncodesInRow.Statement (i : Instr) : Prop :=
  (rowPattern i).matchesBits (encode i).bits.1 (encode i).bits.2 = true

theorem EncodesInRow.reset : EncodesInRow.Statement .reset := by
  unfold EncodesInRow.Statement; decide

theorem EncodesInRow.idle : EncodesInRow.Statement .idle := by
  unfold EncodesInRow.Statement; decide

theorem EncodesInRow.decode (sym0 sym1 sym2 sym3 : Byte) :
    EncodesInRow.Statement (.decode sym0 sym1 sym2 sym3) := by
  have bits : ∀ i, (commandWord false true (groupWord sym0 sym1 sym2 sym3) &&& 0x300000000#34).getLsbD i
      = (0x100000000#34).getLsbD i := by
    intro i
    rw [BitVec.getLsbD_and, Machine.getLsbD_commandWord]
    by_cases h : i < 32
    · have : ∀ j : Fin 32, (0x300000000#34).getLsbD j.val = false ∧ (0x100000000#34).getLsbD j.val = false := by decide
      simp [-BitVec.getLsbD_eq_getElem, this ⟨i, h⟩]
    · by_cases h' : i < 34
      · obtain rfl | rfl : i = 32 ∨ i = 33 := by omega
        all_goals simp
      · rw [BitVec.getLsbD_of_ge (0x300000000#34) i (by omega), BitVec.getLsbD_of_ge (0x100000000#34) i (by omega),
          Bool.and_false]
  have h := congrArg BitVec.toNat (BitVec.eq_of_getLsbD_eq fun i _ => bits i)
  simpa [EncodesInRow.Statement, RowPattern.matchesBits, rowPattern, encode, InputWord.bits] using h
theorem EncodesInRow.symUpperA : EncodesInRow.Statement .symUpperA := rfl

theorem EncodesInRow.symUpperB : EncodesInRow.Statement .symUpperB := rfl

theorem EncodesInRow.symUpperC : EncodesInRow.Statement .symUpperC := rfl

theorem EncodesInRow.symUpperD : EncodesInRow.Statement .symUpperD := rfl

theorem EncodesInRow.symUpperE : EncodesInRow.Statement .symUpperE := rfl

theorem EncodesInRow.symUpperF : EncodesInRow.Statement .symUpperF := rfl

theorem EncodesInRow.symUpperG : EncodesInRow.Statement .symUpperG := rfl

theorem EncodesInRow.symUpperH : EncodesInRow.Statement .symUpperH := rfl

theorem EncodesInRow.symUpperI : EncodesInRow.Statement .symUpperI := rfl

theorem EncodesInRow.symUpperJ : EncodesInRow.Statement .symUpperJ := rfl

theorem EncodesInRow.symUpperK : EncodesInRow.Statement .symUpperK := rfl

theorem EncodesInRow.symUpperL : EncodesInRow.Statement .symUpperL := rfl

theorem EncodesInRow.symUpperM : EncodesInRow.Statement .symUpperM := rfl

theorem EncodesInRow.symUpperN : EncodesInRow.Statement .symUpperN := rfl

theorem EncodesInRow.symUpperO : EncodesInRow.Statement .symUpperO := rfl

theorem EncodesInRow.symUpperP : EncodesInRow.Statement .symUpperP := rfl

theorem EncodesInRow.symUpperQ : EncodesInRow.Statement .symUpperQ := rfl

theorem EncodesInRow.symUpperR : EncodesInRow.Statement .symUpperR := rfl

theorem EncodesInRow.symUpperS : EncodesInRow.Statement .symUpperS := rfl

theorem EncodesInRow.symUpperT : EncodesInRow.Statement .symUpperT := rfl

theorem EncodesInRow.symUpperU : EncodesInRow.Statement .symUpperU := rfl

theorem EncodesInRow.symUpperV : EncodesInRow.Statement .symUpperV := rfl

theorem EncodesInRow.symUpperW : EncodesInRow.Statement .symUpperW := rfl

theorem EncodesInRow.symUpperX : EncodesInRow.Statement .symUpperX := rfl

theorem EncodesInRow.symUpperY : EncodesInRow.Statement .symUpperY := rfl

theorem EncodesInRow.symUpperZ : EncodesInRow.Statement .symUpperZ := rfl

theorem EncodesInRow.symLowerA : EncodesInRow.Statement .symLowerA := rfl

theorem EncodesInRow.symLowerB : EncodesInRow.Statement .symLowerB := rfl

theorem EncodesInRow.symLowerC : EncodesInRow.Statement .symLowerC := rfl

theorem EncodesInRow.symLowerD : EncodesInRow.Statement .symLowerD := rfl

theorem EncodesInRow.symLowerE : EncodesInRow.Statement .symLowerE := rfl

theorem EncodesInRow.symLowerF : EncodesInRow.Statement .symLowerF := rfl

theorem EncodesInRow.symLowerG : EncodesInRow.Statement .symLowerG := rfl

theorem EncodesInRow.symLowerH : EncodesInRow.Statement .symLowerH := rfl

theorem EncodesInRow.symLowerI : EncodesInRow.Statement .symLowerI := rfl

theorem EncodesInRow.symLowerJ : EncodesInRow.Statement .symLowerJ := rfl

theorem EncodesInRow.symLowerK : EncodesInRow.Statement .symLowerK := rfl

theorem EncodesInRow.symLowerL : EncodesInRow.Statement .symLowerL := rfl

theorem EncodesInRow.symLowerM : EncodesInRow.Statement .symLowerM := rfl

theorem EncodesInRow.symLowerN : EncodesInRow.Statement .symLowerN := rfl

theorem EncodesInRow.symLowerO : EncodesInRow.Statement .symLowerO := rfl

theorem EncodesInRow.symLowerP : EncodesInRow.Statement .symLowerP := rfl

theorem EncodesInRow.symLowerQ : EncodesInRow.Statement .symLowerQ := rfl

theorem EncodesInRow.symLowerR : EncodesInRow.Statement .symLowerR := rfl

theorem EncodesInRow.symLowerS : EncodesInRow.Statement .symLowerS := rfl

theorem EncodesInRow.symLowerT : EncodesInRow.Statement .symLowerT := rfl

theorem EncodesInRow.symLowerU : EncodesInRow.Statement .symLowerU := rfl

theorem EncodesInRow.symLowerV : EncodesInRow.Statement .symLowerV := rfl

theorem EncodesInRow.symLowerW : EncodesInRow.Statement .symLowerW := rfl

theorem EncodesInRow.symLowerX : EncodesInRow.Statement .symLowerX := rfl

theorem EncodesInRow.symLowerY : EncodesInRow.Statement .symLowerY := rfl

theorem EncodesInRow.symLowerZ : EncodesInRow.Statement .symLowerZ := rfl

theorem EncodesInRow.symDigit0 : EncodesInRow.Statement .symDigit0 := rfl

theorem EncodesInRow.symDigit1 : EncodesInRow.Statement .symDigit1 := rfl

theorem EncodesInRow.symDigit2 : EncodesInRow.Statement .symDigit2 := rfl

theorem EncodesInRow.symDigit3 : EncodesInRow.Statement .symDigit3 := rfl

theorem EncodesInRow.symDigit4 : EncodesInRow.Statement .symDigit4 := rfl

theorem EncodesInRow.symDigit5 : EncodesInRow.Statement .symDigit5 := rfl

theorem EncodesInRow.symDigit6 : EncodesInRow.Statement .symDigit6 := rfl

theorem EncodesInRow.symDigit7 : EncodesInRow.Statement .symDigit7 := rfl

theorem EncodesInRow.symDigit8 : EncodesInRow.Statement .symDigit8 := rfl

theorem EncodesInRow.symDigit9 : EncodesInRow.Statement .symDigit9 := rfl

theorem EncodesInRow.symPlus : EncodesInRow.Statement .symPlus := rfl

theorem EncodesInRow.symSlash : EncodesInRow.Statement .symSlash := rfl

theorem EncodesInRow.symPad : EncodesInRow.Statement .symPad := rfl

end Sys2Proof.Laws
end

