-- ==== Sys2Proof/Laws/State.lean ====
section
/-! SUPPORT. Sys2Proof/Laws/State.lean: one lemma per field of State per update. -/

namespace Sys2Proof.Machine

@[simp] theorem writeRegisters_regs (s : State) (r : Registers) : (s.writeRegisters r).regs = r := rfl
@[simp] theorem writeRegisters_env (s : State) (r : Registers) : (s.writeRegisters r).env = s.env := rfl

@[simp] theorem present_regs (s : State) (ws : List InputWord) : (s.present ws).regs = s.regs := rfl
@[simp] theorem present_inputs (s : State) (ws : List InputWord) : 
    (s.present ws).env.inputs = ws ++ s.env.inputs := rfl
@[simp] theorem present_edge (s : State) (ws : List InputWord) : (s.present ws).env.edge = s.env.edge := rfl

@[simp] theorem takeInput_regs (s : State) : s.takeInput.regs = s.regs := rfl
@[simp] theorem takeInput_inputs (s : State) : s.takeInput.env.inputs = s.env.inputs.tail := rfl

theorem takeInput_edge_of_cmd (s : State) (cw : CommandWord) (h : s.nextInput = .cmd cw) :
    s.takeInput.env.edge = s.env.edge + 1 := by
  have h' : s.env.driven = _ := h
  simp [State.takeInput, Environment.advance, h']

theorem takeInput_edge_of_sym (s : State) (code : Byte) (h : s.nextInput = .sym code) :
    s.takeInput.env.edge = s.env.edge := by
  have h' : s.env.driven = _ := h
  simp [State.takeInput, Environment.advance, h']

theorem nextInput_of_cons (s : State) (w : InputWord) (ws : List InputWord) (h : s.env.inputs = w :: ws) :
    s.nextInput = w := by
  simp [State.nextInput, Environment.driven, h]

theorem nextInput_of_nil (s : State) (h : s.env.inputs = []) : s.nextInput = .cmd (Config.freeInput s.env.edge) := by
  simp [State.nextInput, Environment.driven, h]

@[simp] theorem nextInput_present_cons (s : State) (w : InputWord) (ws : List InputWord) :
    (s.present (w :: ws)).nextInput = w := rfl

@[simp] theorem reset_regs : State.reset.regs = Registers.zero := rfl
@[simp] theorem reset_inputs : State.reset.env.inputs = [] := rfl
@[simp] theorem reset_edge : State.reset.env.edge = 0 := rfl

@[simp] theorem powerUpWith_regs (d : OutputRecord) : (State.powerUpWith d).regs = Registers.ofRecord d := rfl
@[simp] theorem powerUpWith_inputs (d : OutputRecord) : (State.powerUpWith d).env.inputs = [] := rfl
@[simp] theorem powerUpWith_edge (d : OutputRecord) : (State.powerUpWith d).env.edge = 0 := rfl

end Sys2Proof.Machine
end

