-- ==== Sys2Proof/Laws/Step.lean ====
section
/-! SUPPORT. Sys2Proof/Laws/Step.lean: what a row, the block and a step can answer. -/

namespace Sys2Proof.Machine

/-- A command decodes to one of the three operations. -/
theorem decode_cmd (cw : CommandWord) : decode (.cmd cw) = .ok (decodeCommand cw) := rfl

/-- A `SYM` row goes on in the state it is given. -/
theorem symbolOnLane_eq (code : Byte) (s : State) : symbolOnLane code s = .next s := rfl

theorem noRow_eq (e : DecodeError) (s : State) : noRow e s = .next s := by cases e <;> rfl

/-- All a row can do: a clocked operation writes the registers, a symbol on a lane leaves the state. -/
theorem exec_cases (i : Instr) (s : State) :
    (i = .reset ∧ exec i s = .next (s.writeRegisters Registers.zero)) ∨
    (i = .idle ∧ exec i s = .next (s.writeRegisters Registers.zero)) ∨
    (∃ a b c d, i = .decode a b c d ∧ exec i s = .next (s.writeRegisters (decodeGroup a b c d).registers)) ∨
    ((∃ code, encode i = .sym code) ∧ exec i s = .next s) := by
  cases i
  case reset => exact .inl ⟨rfl, rfl⟩
  case idle => exact .inr (.inl ⟨rfl, rfl⟩)
  case decode a b c d => exact .inr (.inr (.inl ⟨a, b, c, d, rfl, rfl⟩))
  all_goals exact .inr (.inr (.inr ⟨⟨_, rfl⟩, rfl⟩))

/-- What a command word executes writes `Next` of its ports. -/
theorem exec_decodeCommand (cw : CommandWord) (s : State) :
    exec (decodeCommand cw) s = .next (s.writeRegisters (nextRegisters (.ofWord cw))) := by
  unfold decodeCommand nextRegisters InputPorts.ofWord
  cases commandRst cw
  · cases commandStart cw <;> rfl
  · rfl

theorem encode_of_lookup {code : Byte} {i : Instr} (h : symbolRows.lookup code = some i) :
    encode i = .sym code := by
  have all : ∀ c : Byte, ∀ j ∈ symbolRows.lookup c, encode j = .sym c := by decide
  exact all code i h

/-- All the block can do at a rising edge: `Next` of the ports goes to the registers. -/
theorem stepOn_cmd (cw : CommandWord) (s : State) :
    stepOn (.cmd cw) s = .next (s.writeRegisters (nextRegisters (.ofWord cw))) := exec_decodeCommand cw s

/-- All it can do with a symbol alone: the state goes on, be the symbol a row or not. -/
theorem stepOn_sym (code : Byte) (s : State) : stepOn (.sym code) s = .next s := by
  unfold stepOn
  cases h : decode (.sym code) with
  | error e => exact noRow_eq e s
  | ok i =>
    have henc : encode i = .sym code := by
      simp only [decode, decodeSymbol] at h
      split at h
      · cases h; exact encode_of_lookup ‹_›
      · cases h
    obtain ⟨rfl, -⟩ | ⟨rfl, -⟩ | ⟨_, _, _, _, rfl, -⟩ | ⟨-, he⟩ := exec_cases i s
    · cases henc
    · cases henc
    · cases henc
    · exact he

/-- A step is the block's step on what the environment drives, and the environment past it. -/
theorem step_eq (s : State) : step s = stepOn s.env.driven { s with env := s.env.advance } := rfl

end Sys2Proof.Machine
end

