-- ==== Sys2Proof/Tests/Slice0.lean ====
section
/-! SUPPORT. Sys2Proof/Tests/Slice0.lean: expected values from 30_encoding.md R60, R68, R74 and from 95_test_vectors.md,
and a witness for the hypotheses of every obligation that has some. -/

namespace Sys2Proof.Tests

open Sys2Proof.Machine

/-! ### Every constructor's word, from R60 and R65 -/

theorem test_decode_commands :
    [0x200000000, 0x3FFFFFFFF, 0x000000000, 0x051554A44, 0x151554A44].map (decodeTableWord 40)
      = [some .reset, some .reset, some .idle, some .idle, some (.decode 0x51 0x55 0x4A 0x44)] := by decide

theorem test_decode_capitals :
    [0b01000001, 0b01000010, 0b01000011, 0b01000100, 0b01000101, 0b01000110, 0b01000111,
      0b01001000, 0b01001001, 0b01001010, 0b01001011, 0b01001100, 0b01001101, 0b01001110,
      0b01001111, 0b01010000, 0b01010001, 0b01010010, 0b01010011, 0b01010100, 0b01010101,
      0b01010110, 0b01010111, 0b01011000, 0b01011001, 0b01011010].map (decodeTableWord 8)
      = [some .symUpperA, some .symUpperB, some .symUpperC, some .symUpperD, some .symUpperE,
        some .symUpperF, some .symUpperG, some .symUpperH, some .symUpperI, some .symUpperJ,
        some .symUpperK, some .symUpperL, some .symUpperM, some .symUpperN, some .symUpperO,
        some .symUpperP, some .symUpperQ, some .symUpperR, some .symUpperS, some .symUpperT,
        some .symUpperU, some .symUpperV, some .symUpperW, some .symUpperX, some .symUpperY,
        some .symUpperZ] := by decide

theorem test_decode_small_letters :
    [0b01100001, 0b01100010, 0b01100011, 0b01100100, 0b01100101, 0b01100110, 0b01100111,
      0b01101000, 0b01101001, 0b01101010, 0b01101011, 0b01101100, 0b01101101, 0b01101110,
      0b01101111, 0b01110000, 0b01110001, 0b01110010, 0b01110011, 0b01110100, 0b01110101,
      0b01110110, 0b01110111, 0b01111000, 0b01111001, 0b01111010].map (decodeTableWord 8)
      = [some .symLowerA, some .symLowerB, some .symLowerC, some .symLowerD, some .symLowerE,
        some .symLowerF, some .symLowerG, some .symLowerH, some .symLowerI, some .symLowerJ,
        some .symLowerK, some .symLowerL, some .symLowerM, some .symLowerN, some .symLowerO,
        some .symLowerP, some .symLowerQ, some .symLowerR, some .symLowerS, some .symLowerT,
        some .symLowerU, some .symLowerV, some .symLowerW, some .symLowerX, some .symLowerY,
        some .symLowerZ] := by decide

theorem test_decode_digits :
    [0b00110000, 0b00110001, 0b00110010, 0b00110011, 0b00110100, 0b00110101, 0b00110110,
      0b00110111, 0b00111000, 0b00111001].map (decodeTableWord 8)
      = [some .symDigit0, some .symDigit1, some .symDigit2, some .symDigit3, some .symDigit4,
        some .symDigit5, some .symDigit6, some .symDigit7, some .symDigit8, some .symDigit9] := by decide

theorem test_decode_plus_slash_pad :
    [0b00101011, 0b00101111, 0b00111101].map (decodeTableWord 8)
      = [some .symPlus, some .symSlash, some .symPad] := by decide

/-- R70: codes on both sides of every range, and codes with bit 7 set, are no row. -/
theorem test_decode_nonmembers :
    [0x00, 0x0A, 0x20, 0x23, 0x2A, 0x2C, 0x2D, 0x2E, 0x3A, 0x3C, 0x3E, 0x40, 0x5B, 0x5F, 0x60, 0x7B, 0x80, 0xBD, 0xC1, 0xFF].map
      (decodeTableWord 8) = List.replicate 20 none := by decide

theorem test_decode_rejects_by_name :
    decode (.sym 0x23) = .error (.nonMember 0x23) ∧
    decodeBytes [0x00, 0x00, 0x00, 0x00, 0x04] = .error .bitAboveCommandWord ∧
    decodeBytes [0x41, 0x42] = .error (.badLength 2) := ⟨rfl, rfl, rfl⟩

/-- R74: the encodings of its lines. -/
theorem test_line_words :
    lineWords .reset = some [.cmd 0x200000000] ∧ lineWords .idle = some [.cmd 0x000000000] ∧
    lineWords (.decode [0x51, 0x51, 0x3D, 0x3D]) = some [.cmd 0x151513D3D] ∧
    lineWords (.stream [0x53, 0x47, 0x56, 0x73, 0x62, 0x47, 0x38, 0x3D])
      = some [.cmd 0x153475673, .cmd 0x16247383D] := by decide

/-! ### Well-formedness smoke: each check refuses an ill-formed term -/

theorem test_wellFormed_refuses_a_three_symbol_decode_line : (Line.decode [0x51, 0x55, 0x49]).wellFormed = false := by decide

theorem test_wellFormed_refuses_an_empty_stream : (Line.stream []).wellFormed = false := by decide

theorem test_wellFormed_refuses_a_six_symbol_stream :
    (Line.stream [0x51, 0x55, 0x49, 0x3D, 0x51, 0x55]).wellFormed = false ∧
    lineInstrs (.stream [0x51, 0x55, 0x49, 0x3D, 0x51, 0x55]) = none := by decide

theorem test_wellFormed_admits_every_row : (Instr.decode 0x00 0xFF 0x3D 0x3D).wellFormed = true := by decide

/-! ### The table and the ROM -/

theorem test_symbol_codes_differ : (symbolRows.map Prod.fst).Nodup := by decide

theorem test_symbol_rows_are_the_rom : symbolRows.map Prod.fst = symCodes := by decide

/-- The parameters of R5 are the widths used. -/
theorem test_parameters :
    Config.nsym = symCodes.length ∧ Config.ndata = 2 ^ Config.valw ∧ Config.padpos = Config.ndata ∧
    Config.group * Config.valw = Config.wordw ∧ Config.outmax * Config.symw = Config.wordw ∧
    Config.nsym ≤ 2 ^ Config.posw ∧ Config.outmax < 2 ^ Config.lenw := by decide

/-- 95_test_vectors.md 2.1, totals: the sum of the positions, the sum of the codes and their exclusive or. -/
theorem test_alphabet_totals :
    ((List.finRange 65).map fun i => (positionOf (memRead i)).getD 0).foldl (fun n i => n + i.val) 0 = 2080 ∧
    symCodes.foldl (fun n c => n + c.toNat) 0 = 5538 ∧ symCodes.foldl (· ^^^ ·) 0 = (0x38 : Byte) := by decide

/-- 95_test_vectors.md 2.1: the four-lane validator on "QUI=". -/
theorem test_lanes_of_QUI_pad :
    [0x51, 0x55, 0x49, 0x3D].map classify =
      [⟨true, false, 16⟩, ⟨true, false, 20⟩, ⟨true, false, 8⟩, ⟨true, true, 0⟩] := by decide

/-! ### DecodeGroup: vectors of 95_test_vectors.md, as symbols and output record -/

/-- The output record `DECODE` of four codes leaves. -/
def recordOf (g : List Byte) : Option OutputRecord :=
  match g with
  | [a, b, c, d] => some (decodeGroup a b c d).registers.record
  | _ => none

/-- Part 2.2, shape DDDD. -/
theorem test_vectors_three_bytes :
    [[0x54, 0x57, 0x46, 0x75], [0x41, 0x41, 0x41, 0x41], [0x2F, 0x2F, 0x2F, 0x2F],
      [0x51, 0x55, 0x4A, 0x44], [0x71, 0x71, 0x71, 0x71], [0x51, 0x51, 0x51, 0x51],
      [0x7A, 0x7A, 0x7A, 0x7A], [0x30, 0x30, 0x30, 0x30], [0x39, 0x39, 0x39, 0x39]].map recordOf
      = [some 0xB4D616E, some 0xB000000, some 0xBFFFFFF, some 0xB414243, some 0xBAAAAAA, some 0xB410410, some 0xBCF3CF3, some 0xBD34D34, some 0xBF7DF7D] := by decide

/-- Part 2.2, shape DDDP, canonical or not. -/
theorem test_vectors_two_bytes :
    [[0x51, 0x55, 0x49, 0x3D], [0x54, 0x57, 0x45, 0x3D], [0x62, 0x47, 0x38, 0x3D],
      [0x5A, 0x6D, 0x38, 0x3D], [0x41, 0x41, 0x41, 0x3D], [0x2F, 0x2F, 0x38, 0x3D],
      [0x51, 0x55, 0x4A, 0x3D], [0x51, 0x55, 0x4B, 0x3D], [0x51, 0x55, 0x4C, 0x3D]].map recordOf
      = [some 0xA414200, some 0xA4D6100, some 0xA6C6F00, some 0xA666F00, some 0xA000000, some 0xAFFFF00, some 0xA414200, some 0xA414200, some 0xA414200] := by decide

/-- Part 2.2, shape DDPP, canonical or not. -/
theorem test_vectors_one_byte :
    [[0x51, 0x51, 0x3D, 0x3D], [0x54, 0x51, 0x3D, 0x3D], [0x5A, 0x67, 0x3D, 0x3D],
      [0x41, 0x41, 0x3D, 0x3D], [0x2F, 0x77, 0x3D, 0x3D], [0x51, 0x52, 0x3D, 0x3D],
      [0x51, 0x53, 0x3D, 0x3D], [0x51, 0x66, 0x3D, 0x3D], [0x41, 0x2F, 0x3D, 0x3D]].map recordOf
      = [some 0x9410000, some 0x94D0000, some 0x9660000, some 0x9000000, some 0x9FF0000, some 0x9410000, some 0x9410000, some 0x9410000, some 0x9030000] := by decide

/-- Part 2.2: one group of each of the 13 malformed shapes over D and P. -/
theorem test_vectors_padding_misplaced :
    [[0x3D, 0x3D, 0x3D, 0x3D], [0x3D, 0x51, 0x51, 0x51], [0x3D, 0x41, 0x3D, 0x3D],
      [0x3D, 0x51, 0x51, 0x3D], [0x41, 0x3D, 0x3D, 0x3D], [0x51, 0x51, 0x3D, 0x51],
      [0x51, 0x3D, 0x51, 0x51], [0x51, 0x3D, 0x51, 0x3D], [0x51, 0x3D, 0x3D, 0x51],
      [0x3D, 0x51, 0x3D, 0x51], [0x3D, 0x3D, 0x51, 0x51], [0x3D, 0x3D, 0x51, 0x3D],
      [0x3D, 0x3D, 0x3D, 0x51]].map recordOf
      = [some 0x4000000, some 0x4000000, some 0x4000000, some 0x4000000, some 0x4000000, some 0x4000000, some 0x4000000, some 0x4000000, some 0x4000000, some 0x4000000, some 0x4000000, some 0x4000000, some 0x4000000] := by decide

/-- Parts 1 and 2.2: groups with a non-member. -/
theorem test_vectors_non_members :
    [[0x23, 0x55, 0x4A, 0x44], [0x51, 0x23, 0x4A, 0x44], [0x51, 0x55, 0x23, 0x44],
      [0x51, 0x55, 0x4A, 0x23], [0x23, 0x3D, 0x3D, 0x3D], [0x23, 0x23, 0x3D, 0x23],
      [0x3D, 0x41, 0x23, 0x41], [0x23, 0x51, 0x51, 0x51], [0x51, 0x23, 0x51, 0x51]].map recordOf
      = [some 0x4000000, some 0x4000000, some 0x4000000, some 0x4000000, some 0x4000000, some 0x4000000, some 0x4000000, some 0x4000000, some 0x4000000] := by decide

/-- Part 2.2, column Ek: the priority of causes. -/
theorem test_errKind_priority :
    [(errKind 0x51 0x55 0x4A 0x44).code, (errKind 0x51 0x51 0x3D 0x51).code, (errKind 0x51 0x51 0x23 0x3D).code, (errKind 0x51 0x51 0x3D 0x23).code, (errKind 0x3D 0x23 0x41 0x41).code, (errKind 0x23 0x3D 0x41 0x41).code, (errKind 0x23 0x23 0x3D 0x3D).code]
      = [0, 2, 1, 1, 2, 2, 1] := by decide

/-! ### Steps -/

/-- The output record a step leaves. -/
def recordAfter (o : Host.Outcome State Fault Refusal) : Option OutputRecord :=
  match o with
  | .next t => some t.regs.record
  | .fault _ => none
  | .refused _ => none

/-- A state whose registers break the invariants, as the power-up state may (T4, run b). -/
def powered : State := State.powerUpWith 0xFFFFFFF

/-- T1, edge 1. -/
theorem test_step_decode_QUJD : recordAfter (step (State.reset.withFetchWord 40 0x151554A44)) = some 0xB414243 := by decide

/-- T4, run b: the power-up state leaves no trace. -/
theorem test_step_decode_after_power_up : recordAfter (step (powered.withFetchWord 40 0x151513D3D)) = some 0x9410000 := by decide

/-- T2, edge 1: `rst` has priority over `start`. -/
theorem test_step_reset_over_start : recordAfter (step (powered.withFetchWord 40 0x35155493D)) = some 0 := by decide

/-- T1, edge 3: symbols on the ports of an `IDLE` edge are ignored, and the result is not held. -/
theorem test_step_idle_ignores_symbols : recordAfter (step (powered.withFetchWord 40 0x051554A44)) = some 0 := by decide

/-- R82: a symbol on a lane with no edge changes no register, be it a member or not. -/
theorem test_step_symbol_keeps_registers :
    recordAfter (step (powered.withFetchWord 8 0x3D)) = some 0xFFFFFFF ∧
    recordAfter (step (powered.withFetchWord 8 0x23)) = some 0xFFFFFFF := by decide

/-- P2: the decoded stream and the error count of `STREAM "TWFuQQ=QTWE="`. -/
theorem test_stream_of_P2 :
    decodedStream (runOn powered [.cmd 0x154574675, .cmd 0x151513D51, .cmd 0x15457453D]) = [0x4D, 0x61, 0x6E, 0x4D, 0x61] ∧
    errorCount (runOn powered [.cmd 0x154574675, .cmd 0x151513D51, .cmd 0x15457453D]) = 1 := by decide

/-- 95_test_vectors.md, round trip: `e3` of 4D 61 6E is "TWFu", `e2` of 4D 61 is "TWE=", `e1` of 4D is "TQ==". -/
theorem test_inverse_constructions :
    encodeThree 0x4D 0x61 0x6E = ⟨0x54, 0x57, 0x46, 0x75⟩ ∧ encodeTwo 0x4D 0x61 = ⟨0x54, 0x57, 0x45, 0x3D⟩ ∧
    encodeOne 0x4D = ⟨0x54, 0x51, 0x3D, 0x3D⟩ := by decide

/-- R21: the output ports show the registers. -/
theorem test_output_ports : powered.outputs = ⟨true, true, 3, 0xFF, 0xFF, 0xFF⟩ := by decide

/-! ### Witnesses: the hypotheses of each obligation can be met -/

/-- A state with one input given. -/
def given (w : InputWord) : State := { regs := Registers.zero, env := { inputs := [w], edge := 7 } }

theorem witness_LoneSymbolStepsWithoutWriting : (given (.sym 0xFF)).env.inputs = .sym 0xFF :: [] := rfl

theorem witness_RomHoldsTheAlphabetAndNothingElse : 65 ≤ 65 ∧ alphabetRom.read 65 = none := by decide

theorem witness_RomEntriesArePairwiseDifferent : memRead 64 = memRead 64 ∧ memRead 64 = (0x3D : Byte) := by decide

theorem witness_LookupAndSymCodeAreInverse : positionOf 0x2F = some 63 := by decide

theorem witness_LaneRecordFollowsTheSymbol : memRead 0 = (0x41 : Byte) ∧ (classify 0x00).member = false := by decide

theorem witness_HeadPaddingIsMalformed :
    ((classify 0x41).pad || (classify 0x3D).pad) = true ∧ ((classify 0x3D).pad || (classify 0x41).pad) = true := by decide

theorem witness_NonMemberAnywhereIsMalformed : isMember 0x23 = false := by decide

theorem witness_ThreePaddingSymbolsAreMalformed :
    3 ≤ padCount (classify 0x41) (classify 0x3D) (classify 0x3D) (classify 0x3D) ∧
    decodeGroup 0x41 0x41 0x3D 0x3D = .ok 1 0x00 0x00 0x00 := by decide

theorem witness_DataAfterPaddingIsMalformed :
    ∃ (g : Fin 4 → Byte) (i j : Fin 4), i < j ∧ g i = 0x3D ∧ g j ≠ 0x3D :=
  ⟨fun k => if k = 2 then 0x3D else 0x51, 2, 3, by decide, by decide, by decide⟩

theorem witness_DecodeWritesTheResultOfTheGroup :
    decodeGroup 0x2F 0x2F 0x2F 0x2F = .ok 3 0xFF 0xFF 0xFF ∧ decodeGroup 0x51 0x51 0x3D 0x51 = .malformed := by decide

theorem witness_MalformedGroupWritesOnlyTheFlag :
    shapeOf 0x51 0x51 0x3D 0x23 ∉ ([[.data, .data, .data, .data], [.data, .data, .data, .padding],
      [.data, .data, .padding, .padding]] : List (List SymbolClass)) := by decide

theorem witness_DroppedBitsOfAPaddedGroupAreIgnored :
    (16 : SixBit).extractLsb' 4 2 = (31 : SixBit).extractLsb' 4 2 ∧
    (8 : SixBit).extractLsb' 2 4 = (11 : SixBit).extractLsb' 2 4 := by decide

theorem witness_InverseConstructionsDecodeToTheirBytes :
    shapeOf 0x54 0x57 0x46 0x75 = [.data, .data, .data, .data] ∧
    ({ s0 := 0x54, s1 := 0x57, s2 := 0x46, s3 := 0x75 } : Sys2Proof.Machine.Group).decoded = .ok 3 0x4D 0x61 0x6E := by decide

/-- One group for each branch of the priority: head padding, a non-member, data after padding, none of them. -/
theorem witness_ErrKindFollowsThePriorityOfCauses :
    ((classify 0x3D).pad = true) ∧
    (¬((classify 0x51).pad = true ∨ (classify 0x51).pad = true) ∧ isMember 0x23 = false) ∧
    ((classify 0x3D).pad = true ∧ (classify 0x51).pad = false ∧ isMember 0x51 = true ∧ isMember 0x3D = true) ∧
    ¬((classify 0x51).pad = true ∧ (classify 0x51).pad = false) := by decide

theorem witness_ResetEdgeClearsEveryRegister :
    (given (.cmd (commandWord true true 0x5155493D))).env.inputs = .cmd (commandWord true true 0x5155493D) :: [] := rfl

theorem witness_IdleEdgeClearsEveryRegister :
    (given (.cmd (commandWord false false 0x51554A44))).env.inputs = .cmd (commandWord false false 0x51554A44) :: [] := rfl

theorem witness_StepAppliesNextToTheSampledInputs :
    (given (.cmd (InputPorts.toWord ⟨false, true, 0x51, 0x55, 0x49, 0x3D⟩))).env.inputs
      = .cmd (InputPorts.toWord ⟨false, true, 0x51, 0x55, 0x49, 0x3D⟩) :: [] ∧
    decodeGroup 0x51 0x55 0x49 0x3D = .ok 2 0x41 0x42 0x00 ∧ decodeGroup 0x3D 0x3D 0x3D 0x3D = .malformed := by decide

theorem witness_StepRunsTheDecodedRow :
    decode (given (.cmd 0x151554A44)).nextInput = .ok (.decode 0x51 0x55 0x4A 0x44) ∧
    (given (.cmd 0x151554A44)).nextInput = .cmd 0x151554A44 ∧
    decode (given (.sym 0x41)).nextInput = .ok .symUpperA ∧ (given (.sym 0x41)).nextInput = .sym 0x41 :=
  ⟨rfl, rfl, rfl, rfl⟩

theorem witness_RegistersDependOnTheSampledInputsAlone :
    (given (.cmd 0x151554A44)).nextInput = .cmd 0x151554A44 ∧
    (powered.present [.cmd 0x151554A44]).nextInput = .cmd 0x151554A44 := ⟨rfl, rfl⟩

/-- Edges after which `OUTLEN` is 1 and 2, after which the group was malformed, and an `IDLE` edge. -/
theorem witness_RegistersAreLegalAfterEveryEdge :
    (∃ s', step (given (.cmd 0x151513D3D)) = .next s' ∧ s'.regs.outlen = 1) ∧
    (∃ s', step (given (.cmd 0x15155493D)) = .next s' ∧ s'.regs.outlen = 2) ∧
    (∃ s', step (given (.cmd 0x13D3D3D3D)) = .next s' ∧ s'.regs.valid = false ∧ s'.regs.malformed = true) ∧
    ∃ s', step (given (.cmd 0x051554A44)) = .next s' ∧ s'.regs.valid = false ∧ s'.regs.malformed = false :=
  ⟨⟨_, rfl, by decide⟩, ⟨_, rfl, by decide⟩, ⟨_, rfl, by decide⟩, ⟨_, rfl, by decide⟩⟩

theorem witness_EveryStepKeepsTheInvariant :
    ∃ s s' : State, s.Inv ∧ step s = .next s' ∧ s'.regs.outlen = 2 :=
  ⟨given (.cmd 0x15155493D), _, by decide, rfl, by decide⟩

theorem witness_ExecFrame :
    (∃ t, exec .symPad powered = .next t) ∧ encode .symPad = .sym 0x3D ∧
    (∃ t, exec .idle powered = .next t) ∧ encode .idle = .cmd (commandWord false false 0) :=
  ⟨⟨_, rfl⟩, rfl, ⟨_, rfl⟩, rfl⟩

theorem witness_DecodeOfEncodeIsTheRow :
    decode (.sym 0x2B) = .ok .symPlus ∧ decode (.cmd 0x1FFFFFFFF) = .ok (.decode 0xFF 0xFF 0xFF 0xFF) ∧
    decode (.cmd 0x3FFFFFFFF) = .ok .reset ∧ decode (.cmd 0x0FFFFFFFF) = .ok .idle := ⟨rfl, rfl, rfl, rfl⟩

theorem witness_DecodedWordsMeetTheirOwnRowOnly :
    decode (.sym 0x7A) = .ok .symLowerZ ∧ (rowPattern .reset).matchesBits 34 0x200000000 = true ∧
    (rowPattern .symPad).matchesBits 8 0x3D = true := ⟨rfl, by decide, by decide⟩

theorem witness_OutputRecordFields :
    (GroupResult.ok 1 0x41 0 0).registers.valid = true ∧ (GroupResult.ok 1 0x41 0 0).registers.outlen = 1 ∧
    (GroupResult.ok 2 0x41 0 0).registers.outlen = 2 ∧ (GroupResult.ok 3 0x41 0 0).registers.outlen = 3 ∧
    Registers.zero.valid = false := by decide

theorem witness_StreamLineExpandsToConsecutiveDecodes :
    lineInstrs (.stream [0x51, 0x51, 0x3D, 0x3D]) = some [.decode 0x51 0x51 0x3D 0x3D] := by decide

end Sys2Proof.Tests
end

section
/-! Rules for the operations on the state: what `exec`, `stepOn` and `step` answer on each kind of input. -/

namespace Sys2Proof.Machine

/-! ### Rows -/

@[simp] theorem exec_reset (s : State) : exec .reset s = .next (s.writeRegisters Registers.zero) := rfl

@[simp] theorem exec_idle (s : State) : exec .idle s = .next (s.writeRegisters Registers.zero) := rfl

@[simp] theorem exec_decode (a b c d : Byte) (s : State) :
    exec (.decode a b c d) s = .next (s.writeRegisters (decodeGroup a b c d).registers) := rfl

@[simp] theorem writeRegisters_writeRegisters (s : State) (r r' : Registers) :
    (s.writeRegisters r).writeRegisters r' = s.writeRegisters r' := rfl

/-- A clocked row writes all six registers (R23): what stood in them before is lost. -/
theorem exec_writeRegisters_of_encode_cmd {i : Instr} {cw : CommandWord} (h : encode i = .cmd cw)
    (s : State) (r : Registers) : exec i (s.writeRegisters r) = exec i s := by
  obtain ⟨rfl, -⟩ | ⟨rfl, -⟩ | ⟨_, _, _, _, rfl, -⟩ | ⟨⟨code, hsym⟩, -⟩ := exec_cases i s
  · simp
  · simp
  · simp
  · rw [hsym] at h; cases h

/-- A `SYM` row changes nothing (R82). -/
theorem exec_of_encode_sym {i : Instr} {code : Byte} (h : encode i = .sym code) (s : State) :
    exec i s = .next s := by
  obtain ⟨rfl, -⟩ | ⟨rfl, -⟩ | ⟨_, _, _, _, rfl, -⟩ | ⟨-, hexec⟩ := exec_cases i s
  · cases h
  · cases h
  · cases h
  · exact hexec

/-- No row touches the environment. -/
theorem exec_env {i : Instr} {s t : State} (h : exec i s = .next t) : t.env = s.env := by
  obtain ⟨-, hexec⟩ | ⟨-, hexec⟩ | ⟨_, _, _, _, -, hexec⟩ | ⟨-, hexec⟩ := exec_cases i s
  all_goals
    rw [hexec] at h
    cases h
    rfl

/-! ### Ports and steps -/

@[simp] theorem ofWord_toWord (p : InputPorts) : InputPorts.ofWord p.toWord = p := by
  simp [InputPorts.ofWord, InputPorts.toWord]

/-- A rising edge: `Next` of the sampled ports, whatever the registers were (R28, R133). -/
theorem step_of_cmd {s : State} {cw : CommandWord} (h : s.nextInput = .cmd cw) :
    step s = .next { regs := nextRegisters (.ofWord cw), env := s.env.advance } := by
  rw [step, h, stepOn_cmd]; rfl

/-- A symbol alone: the environment goes on and the block stays as it is (R82). -/
theorem step_of_sym {s : State} {code : Byte} (h : s.nextInput = .sym code) :
    step s = .next s.takeInput := by
  rw [step, h, stepOn_sym]

end Sys2Proof.Machine
end

section
/-! `Next` of R133 by the operation that the ports select, and the registers it can write (R29). -/

namespace Sys2Proof.Machine

/-! ### The two kinds of edge -/

theorem nextRegisters_of_selectsDecode {p : InputPorts} (h : p.selectsDecode) :
    nextRegisters p = (decodeGroup p.sym0 p.sym1 p.sym2 p.sym3).registers := by
  obtain ⟨hrst, hstart⟩ := h
  simp [nextRegisters, hrst, hstart]

theorem nextRegisters_of_not_selectsDecode {p : InputPorts} (h : ¬p.selectsDecode) :
    nextRegisters p = Registers.zero := by
  cases hrst : p.rst with
  | true => simp [nextRegisters, hrst]
  | false =>
    have hstart : p.start = false := by simpa [InputPorts.selectsDecode, hrst] using h
    simp [nextRegisters, hrst, hstart]

/-- The edge is no `DECODE` exactly when it performs `RESET` or `IDLE`, by the select bits of R65. -/
theorem not_selectsDecode_ofWord (cw : CommandWord) :
    ¬(InputPorts.ofWord cw).selectsDecode ↔ cw[33] = true ∨ cw[32] = false := by
  simp [InputPorts.selectsDecode, InputPorts.ofWord, commandRst, commandStart, or_iff_not_imp_left]

/-! ### The results of a group as registers -/

@[simp] theorem registers_ok (n : BitVec 2) (b0 b1 b2 : Byte) : (GroupResult.ok n b0 b1 b2).registers =
    { out0 := b0, out1 := b1, out2 := b2, outlen := n, valid := true, malformed := false } := rfl

@[simp] theorem registers_malformed : GroupResult.malformed.registers =
    { out0 := 0, out1 := 0, out2 := 0, outlen := 0, valid := false, malformed := true } := rfl

/-- A chunk has 1, 2 or 3 bytes, and the bytes past its length are 0x00 (R111). -/
theorem decodeGroup_ok_padded {s0 s1 s2 s3 : Byte} {n : BitVec 2} {b0 b1 b2 : Byte}
    (h : decodeGroup s0 s1 s2 s3 = .ok n b0 b1 b2) : n = 3 ∨ (n = 2 ∧ b2 = 0) ∨ (n = 1 ∧ b1 = 0 ∧ b2 = 0) := by
  obtain ⟨_, _, _, _, -, -, -, -, hd⟩ | ⟨_, _, _, -, -, -, -, hd⟩ | ⟨_, _, -, -, -, -, hd⟩ | ⟨-, -, -, hd⟩ :=
    decodeGroup_cases s0 s1 s2 s3 <;> rw [hd] at h
  · cases h; exact .inl rfl
  · cases h; exact .inr (.inl ⟨rfl, rfl⟩)
  · cases h; exact .inr (.inr ⟨rfl, rfl, rfl⟩)
  · cases h

theorem zero_inv : Registers.zero.Inv := by decide

theorem decodeGroup_registers_inv (s0 s1 s2 s3 : Byte) : (decodeGroup s0 s1 s2 s3).registers.Inv := by
  cases h : decodeGroup s0 s1 s2 s3 with
  | malformed => decide
  | ok n b0 b1 b2 => obtain rfl | ⟨rfl, rfl⟩ | ⟨rfl, rfl, rfl⟩ := decodeGroup_ok_padded h <;> simp [Registers.Inv]

/-! ### What holds after every edge -/

/-- Clauses 1 to 4 of R29, for the ports of any edge. -/
theorem nextRegisters_inv (p : InputPorts) : (nextRegisters p).Inv := by
  by_cases h : p.selectsDecode
  · rw [nextRegisters_of_selectsDecode h]; exact decodeGroup_registers_inv ..
  · rw [nextRegisters_of_not_selectsDecode h]; exact zero_inv

/-- Clause 5 of R29: `DECODE` sets one of the two flags, the other operations set none. -/
theorem nextRegisters_flags_clear_iff (p : InputPorts) :
    ((nextRegisters p).valid = false ∧ (nextRegisters p).malformed = false) ↔ ¬p.selectsDecode := by
  by_cases h : p.selectsDecode
  · rw [nextRegisters_of_selectsDecode h]
    cases decodeGroup p.sym0 p.sym1 p.sym2 p.sym3 <;> simp [h]
  · simp [nextRegisters_of_not_selectsDecode h, h, Registers.zero]

end Sys2Proof.Machine
end

section
/-! The inverse constructions of R119 decode to their bytes, so that every chunk is reached. -/

namespace Sys2Proof.Machine

/-! ### The regrouper in 6-bit fields (R67) -/

theorem candidate0_valueWord (p0 p1 p2 p3 : SixBit) :
    candidate0 (valueWord p0 p1 p2 p3) = (p0 ++ p1.extractLsb' 4 2 : BitVec (6 + 2)) := by
  apply BitVec.eq_of_getLsbD_eq
  intro i hi
  rw [getLsbD_candidate0 _ _ hi, getLsbD_valueWord, BitVec.getLsbD_append, BitVec.getLsbD_extractLsb']
  by_cases h : i < 2
  · simp [-BitVec.getLsbD_eq_getElem, h, show ¬16 + i < 6 by omega, show ¬16 + i < 12 by omega,
      show 16 + i < 18 by omega, show 16 + i - 12 = 4 + i by omega]
  · simp [-BitVec.getLsbD_eq_getElem, h, show ¬16 + i < 6 by omega, show ¬16 + i < 12 by omega,
      show ¬16 + i < 18 by omega, show 16 + i - 18 = i - 2 by omega]

theorem candidate1_valueWord (p0 p1 p2 p3 : SixBit) :
    candidate1 (valueWord p0 p1 p2 p3) = (p1.extractLsb' 0 4 ++ p2.extractLsb' 2 4 : BitVec (4 + 4)) := by
  apply BitVec.eq_of_getLsbD_eq
  intro i hi
  rw [getLsbD_candidate1 _ _ hi, getLsbD_valueWord, BitVec.getLsbD_append, BitVec.getLsbD_extractLsb',
    BitVec.getLsbD_extractLsb']
  by_cases h : i < 4
  · simp [-BitVec.getLsbD_eq_getElem, h, show ¬8 + i < 6 by omega, show 8 + i < 12 by omega,
      show 8 + i - 6 = 2 + i by omega]
  · simp [-BitVec.getLsbD_eq_getElem, h, show ¬8 + i < 6 by omega, show ¬8 + i < 12 by omega,
      show 8 + i < 18 by omega, show i - 4 < 4 by omega, show 8 + i - 12 = i - 4 by omega]

theorem candidate2_valueWord (p0 p1 p2 p3 : SixBit) :
    candidate2 (valueWord p0 p1 p2 p3) = (p2.extractLsb' 0 2 ++ p3 : BitVec (2 + 6)) := by
  apply BitVec.eq_of_getLsbD_eq
  intro i hi
  rw [getLsbD_candidate2 _ _ hi, getLsbD_valueWord, BitVec.getLsbD_append, BitVec.getLsbD_extractLsb']
  by_cases h : i < 6
  · simp [-BitVec.getLsbD_eq_getElem, h]
  · simp [-BitVec.getLsbD_eq_getElem, h, show i < 12 by omega, show i - 6 < 2 by omega]

/-! ### Decoding an encoded group -/

/-- One data symbol in each position: three bytes, each joining the ends of two 6-bit fields (R110, R111). -/
theorem decodeGroup_data (v0 v1 v2 v3 : SixBit) :
    decodeGroup (dataSymbol v0) (dataSymbol v1) (dataSymbol v2) (dataSymbol v3) =
      .ok 3 (v0 ++ v1.extractLsb' 4 2) (v1.extractLsb' 0 4 ++ v2.extractLsb' 2 4) (v2.extractLsb' 0 2 ++ v3) := by
  simp only [decodeGroup, classify_dataSymbol, candidate0_valueWord, candidate1_valueWord, candidate2_valueWord]
  rfl

/-- One padding symbol: two bytes; the low bits of the third field go nowhere. -/
theorem decodeGroup_data_pad (v0 v1 v2 : SixBit) :
    decodeGroup (dataSymbol v0) (dataSymbol v1) (dataSymbol v2) 0x3D =
      .ok 2 (v0 ++ v1.extractLsb' 4 2) (v1.extractLsb' 0 4 ++ v2.extractLsb' 2 4) 0 := by
  simp only [decodeGroup, classify_dataSymbol, classify_padSymbol, candidate0_valueWord, candidate1_valueWord]
  rfl

/-- Two padding symbols: one byte; the low bits of the second field go nowhere. -/
theorem decodeGroup_data_pad_pad (v0 v1 : SixBit) :
    decodeGroup (dataSymbol v0) (dataSymbol v1) 0x3D 0x3D = .ok 1 (v0 ++ v1.extractLsb' 4 2) 0 0 := by
  simp only [decodeGroup, classify_dataSymbol, classify_padSymbol, candidate0_valueWord]
  rfl

/-- A byte from the fields that `e3`, `e2` and `e1` cut its bits into: six bits and the top two of the next. -/
theorem append_fields_first (x : Byte) (b : BitVec 4) :
    (x.extractLsb' 2 6 ++ (x.extractLsb' 0 2 ++ b : BitVec (2 + 4)).extractLsb' 4 2 : BitVec (6 + 2)) = x := by
  apply BitVec.eq_of_getLsbD_eq
  intro i hi
  simp only [BitVec.getLsbD_append, BitVec.getLsbD_extractLsb']
  by_cases h : i < 2
  · simp [-BitVec.getLsbD_eq_getElem, h]
  · simp [-BitVec.getLsbD_eq_getElem, h, show i - 2 < 6 by omega, show 2 + (i - 2) = i by omega]

/-- The second byte: the low four bits of one field and the top four of the next. -/
theorem append_fields_second (a c : BitVec 2) (y : Byte) :
    ((a ++ y.extractLsb' 4 4 : BitVec (2 + 4)).extractLsb' 0 4 ++
      (y.extractLsb' 0 4 ++ c : BitVec (4 + 2)).extractLsb' 2 4 : BitVec (4 + 4)) = y := by
  apply BitVec.eq_of_getLsbD_eq
  intro i hi
  simp only [BitVec.getLsbD_append, BitVec.getLsbD_extractLsb']
  by_cases h : i < 4
  · simp [-BitVec.getLsbD_eq_getElem, h, show ¬2 + i < 2 by omega]
  · simp [-BitVec.getLsbD_eq_getElem, h, show i - 4 < 4 by omega, show 4 + (i - 4) = i by omega]

/-- The third byte: the low two bits of one field and the last field. -/
theorem append_fields_third (b : BitVec 4) (z : Byte) :
    ((b ++ z.extractLsb' 6 2 : BitVec (4 + 2)).extractLsb' 0 2 ++ z.extractLsb' 0 6 : BitVec (2 + 6)) = z := by
  apply BitVec.eq_of_getLsbD_eq
  intro i hi
  simp only [BitVec.getLsbD_append, BitVec.getLsbD_extractLsb']
  by_cases h : i < 6
  · simp [-BitVec.getLsbD_eq_getElem, h]
  · simp [-BitVec.getLsbD_eq_getElem, h, show i - 6 < 2 by omega, show 6 + (i - 6) = i by omega]

theorem encodeThree_decoded (x y z : Byte) : (encodeThree x y z).decoded = .ok 3 x y z :=
  (decodeGroup_data ..).trans
    (by rw [append_fields_first, append_fields_second, append_fields_third])

theorem encodeTwo_decoded (x y : Byte) : (encodeTwo x y).decoded = .ok 2 x y 0 := by
  rw [encodeTwo, padSymbol_eq]
  exact (decodeGroup_data_pad ..).trans (by rw [append_fields_first, append_fields_second])

theorem encodeOne_decoded (x : Byte) : (encodeOne x).decoded = .ok 1 x 0 0 := by
  rw [encodeOne, padSymbol_eq]
  exact (decodeGroup_data_pad_pad ..).trans (by rw [append_fields_first])

/-! ### Ports that drive a group -/

/-- The ports of a `DECODE` edge on a group. -/
def Group.ports (g : Group) : InputPorts :=
  { rst := false, start := true, sym0 := g.s0, sym1 := g.s1, sym2 := g.s2, sym3 := g.s3 }

theorem nextRegisters_ports (g : Group) : nextRegisters g.ports = g.decoded.registers :=
  nextRegisters_of_selectsDecode ⟨rfl, rfl⟩

end Sys2Proof.Machine
end

section
/-! The 28 bits of the output record (R68) and the power-up draw (R31). -/

namespace Sys2Proof.Machine

theorem getLsbD_record (r : Registers) (i : Nat) : r.record.getLsbD i =
    if i < 8 then r.out2.getLsbD i else if i < 16 then r.out1.getLsbD (i - 8)
    else if i < 24 then r.out0.getLsbD (i - 16) else if i < 26 then r.outlen.getLsbD (i - 24)
    else if i = 26 then r.malformed else if i = 27 then r.valid else false := by
  simp only [Registers.record, BitVec.getLsbD_append, BitVec.getLsbD_ofBool, Nat.sub_sub,
    show i - 8 < 8 ↔ i < 16 by omega, show i - (8 + 8) < 8 ↔ i < 24 by omega,
    show i - (8 + 8 + 8) < 2 ↔ i < 26 by omega]
  by_cases hbytes : i < 26
  · simp only [hbytes, if_true]
  by_cases hmalformed : i = 26
  · subst hmalformed; simp
  by_cases hvalid : i = 27
  · subst hvalid; simp
  · simp [hbytes, hmalformed, hvalid, show ¬i < 8 by omega, show ¬i < 16 by omega, show ¬i < 24 by omega,
      show i - 26 ≠ 0 by omega, show i - 27 ≠ 0 by omega]

/-- Every 28-bit pattern is some register state: its own six fields give it back (R31). -/
theorem record_ofRecord (w : OutputRecord) : (Registers.ofRecord w).record = w := by
  apply BitVec.eq_of_getLsbD_eq
  intro i hi
  rw [getLsbD_record]
  simp only [Registers.ofRecord, BitVec.getLsbD_extractLsb']
  split_ifs with h8 h16 h24 h26 hmalformed hvalid
  · simp [h8]
  · simp [show i - 8 < 8 by omega, show 8 + (i - 8) = i by omega]
  · simp [show i - 16 < 8 by omega, show 16 + (i - 16) = i by omega]
  · simp [show i - 24 < 2 by omega, show 24 + (i - 24) = i by omega]
  · simp [hmalformed]
  · simp [hvalid]
  · omega

end Sys2Proof.Machine
end

section
/-! Runs of edges (R136). -/

namespace Sys2Proof.Machine

theorem runOn_nil (s : State) : runOn s [] = [] := rfl

/-- A run whose first input is a rising edge: the cycle after it, and the run from the state the edge leaves. -/
theorem runOn_cons_cmd (s : State) (cw : CommandWord) (ws : List InputWord) :
    runOn s (.cmd cw :: ws) = nextRegisters (.ofWord cw) ::
      runOn { regs := nextRegisters (.ofWord cw), env := { s.env with edge := s.env.edge + 1 } } ws := by
  simp only [runOn, List.length_cons, cycles, step_of_cmd (nextInput_present_cons s (.cmd cw) ws)]
  rfl

end Sys2Proof.Machine
end

section
/-! The statements about the state (10_state.md). -/

open Sys2Proof Sys2Proof.Machine

/-- Settles O34: the registers after the edge are `Next` of its ports, whose clauses are `nextRegisters_inv` and
`nextRegisters_flags_clear_iff`. -/
theorem registersAreLegalAfterEveryEdge : Obligations.RegistersAreLegalAfterEveryEdge := by
  intro s s' cw hcw hstep
  rw [step_of_cmd hcw] at hstep
  cases hstep
  obtain ⟨hflags, hvalid, hbytes, hone, htwo⟩ := nextRegisters_inv (.ofWord cw)
  have hclear := nextRegisters_flags_clear_iff (.ofWord cw)
  rw [not_selectsDecode_ofWord] at hclear
  exact ⟨hflags, hvalid, hbytes, hone, htwo, hclear, fun h =>
    nextRegisters_of_not_selectsDecode ((not_selectsDecode_ofWord cw).mpr h)⟩

/-- Settles O35: an edge establishes the invariant whatever it was before, and a lone symbol leaves the registers. -/
theorem everyStepKeepsTheInvariant : Obligations.EveryStepKeepsTheInvariant := by
  intro s s' hinv hstep
  cases hw : s.nextInput with
  | cmd cw =>
    rw [step_of_cmd hw] at hstep
    cases hstep
    exact nextRegisters_inv _
  | sym code =>
    rw [step_of_sym hw] at hstep
    cases hstep
    exact hinv

/-- Settles O33: both states step to `Next` of the same ports. -/
theorem registersDependOnTheSampledInputsAlone : Obligations.RegistersDependOnTheSampledInputsAlone :=
  fun _ _ _ hs ht => ⟨_, _, step_of_cmd hs, step_of_cmd ht, rfl⟩

/-- Settles O37: a `DECODE` edge leaves what `decodeGroup_ok_padded` allows, and the inverse constructions reach
all of it. -/
theorem reachableRegisterStatesExactly : Obligations.ReachableRegisterStatesExactly := by
  intro r
  constructor
  · rintro ⟨p, rfl⟩
    by_cases h : p.selectsDecode
    · rw [nextRegisters_of_selectsDecode h]
      cases hd : decodeGroup p.sym0 p.sym1 p.sym2 p.sym3 with
      | malformed => exact .inr (.inl rfl)
      | ok n b0 b1 b2 => exact .inr (.inr ⟨rfl, rfl, decodeGroup_ok_padded hd⟩)
    · exact .inl (nextRegisters_of_not_selectsDecode h)
  · obtain ⟨b0, b1, b2, n, valid, malformed⟩ := r
    rintro (h | h | ⟨rfl, rfl, rfl | ⟨rfl, rfl⟩ | ⟨rfl, rfl, rfl⟩⟩)
    · exact ⟨⟨true, false, 0, 0, 0, 0⟩, h.symm⟩
    · exact ⟨Group.ports ⟨0, 0, 0, 0⟩, (nextRegisters_ports _).trans (h ▸ by decide)⟩
    · exact ⟨(encodeThree b0 b1 b2).ports, by rw [nextRegisters_ports, encodeThree_decoded]; rfl⟩
    · exact ⟨(encodeTwo b0 b1).ports, by rw [nextRegisters_ports, encodeTwo_decoded]; rfl⟩
    · exact ⟨(encodeOne b0).ports, by rw [nextRegisters_ports, encodeOne_decoded]; rfl⟩

/-- Settles O39: the frame of all 68 rows, from the cases of `exec`. -/
theorem execFrame : Obligations.ExecFrame := by
  intro i s t h
  refine ⟨exec_env h, fun code hsym => ?_, fun cw hcmd r => ?_⟩
  · rw [exec_of_encode_sym hsym] at h
    cases h
    rfl
  · rw [exec_writeRegisters_of_encode_cmd hcmd, h]

/-- Settles O40: every pattern is its own record, and the first edge writes `Next` of its ports over any draw. -/
theorem powerUpDrawIsForgottenAtTheFirstEdge : Obligations.PowerUpDrawIsForgottenAtTheFirstEdge :=
  ⟨record_ofRecord, ⟨_, rfl⟩, fun _ _ _ => ⟨_, step_of_cmd rfl, step_of_cmd rfl⟩⟩

/-- Settles O52: the block's step on the word of the ports, with the environment handed on. -/
theorem blockStepTakesThePortsAsArguments : Obligations.BlockStepTakesThePortsAsArguments := by
  intro r e
  refine ⟨fun p => ?_, fun code => stepOn_sym code _, step_eq _⟩
  rw [stepOn_cmd, ofWord_toWord]
  rfl

/-- Settles O53, by induction on the list of ports, for every state. -/
theorem runOfEdgesIsNextOfEachEdgesPorts : Obligations.RunOfEdgesIsNextOfEachEdgesPorts := by
  intro s ps
  induction ps generalizing s with
  | nil => exact runOn_nil s
  | cons p ps ih => rw [List.map_cons, runOn_cons_cmd, ofWord_toWord, ih, List.map_cons]

/-- Settles O36: reset writes the record `ZERO`, which meets the invariant. -/
theorem resetStateIsZeroAndMeetsTheInvariant : Obligations.ResetStateIsZeroAndMeetsTheInvariant :=
  ⟨rfl, zero_inv, fun s => ⟨_, exec_reset s, rfl⟩⟩
end

section
/-! Reading a memory of cells, and the alphabet ROM (20_memory.md). -/

namespace Sys2Proof.Machine

/-! ### Cells -/

/-- In canonical form no address stands twice, so a read finds every cell. -/
theorem Memory.read_of_mem {m : Memory} (hwf : m.wf) {a : Nat} {b : Byte} (h : (a, b) ∈ m) :
    m.read a = some b := by
  obtain ⟨before, after, rfl⟩ := List.append_of_mem h
  have hbefore : ∀ p ∈ before, p.1 < a := by
    rw [Memory.wf, List.map_append, List.map_cons, List.pairwise_append] at hwf
    obtain ⟨-, -, hlt⟩ := hwf
    exact fun p hp => hlt p.1 (List.mem_map_of_mem hp) a List.mem_cons_self
  exact List.lookup_eq_some_iff.mpr ⟨before, after, rfl, fun p hp => by simpa using (hbefore p hp).ne'⟩

theorem Memory.read_eq_none_iff {m : Memory} {a : Nat} : m.read a = none ↔ ∀ b, (a, b) ∉ m := by
  simp only [Memory.read, List.lookup_eq_none_iff, bne_iff_ne]
  exact ⟨fun h b hb => h _ hb rfl, fun h p hp => by rintro rfl; exact h _ hp⟩

/-! ### The alphabet ROM -/

theorem mem_alphabetRom {a : Nat} {b : Byte} :
    (a, b) ∈ alphabetRom ↔ ∃ i : Position, i.val = a ∧ memRead i = b := by
  simp [alphabetRom]

@[simp] theorem read_alphabetRom (i : Position) : alphabetRom.read i.val = some (memRead i) :=
  Memory.read_of_mem alphabetRom_wf (mem_alphabetRom.mpr ⟨i, rfl, rfl⟩)

/-- Only the addresses 0 to 64 exist (R40). -/
theorem read_alphabetRom_of_ge {a : Nat} (h : 65 ≤ a) : alphabetRom.read a = none := by
  rw [Memory.read_eq_none_iff]
  intro b hb
  obtain ⟨i, rfl, -⟩ := mem_alphabetRom.mp hb
  exact absurd i.isLt (Nat.not_lt.mpr h)

/-- The closed form of R61 gives the table of R60, row by row. -/
theorem symCodeByRange_eq_memRead (i : Position) : symCodeByRange i = memRead i := by
  revert i; decide

/-- No character appears twice in the alphabet (R43). -/
theorem symCodes_nodup : symCodes.Nodup := by decide

theorem memRead_injective : Function.Injective memRead :=
  fun _ _ h => Fin.ext (symCodes_nodup.getElem_inj_iff.mp h)

end Sys2Proof.Machine
end

section
/-! The statements about the alphabet ROM (20_memory.md). -/

open Sys2Proof Sys2Proof.Machine

/-- Settles O6: every position is a cell, canonical form makes the read find it, and no cell has another address. -/
theorem romHoldsTheAlphabetAndNothingElse : Obligations.RomHoldsTheAlphabetAndNothingElse :=
  ⟨alphabetRom_wf, fun i => by rw [read_alphabetRom, symCodeByRange_eq_memRead], fun _ => read_alphabetRom_of_ge⟩

/-- Settles O7: both forms are the injectivity of the read. -/
theorem romEntriesArePairwiseDifferent : Obligations.RomEntriesArePairwiseDifferent :=
  ⟨fun _ _ h => memRead_injective h, fun _ _ _ hi hj => memRead_injective (hi.trans hj.symm)⟩
end

section
/-! The decoder against the encoder: the operation select by its two bits (R65), the 65 `SYM` rows by their
codes (R69), and each kind of row's mask and match. -/

namespace Sys2Proof.Machine

/-! ### The operation select -/

theorem decodeCommand_eq_reset_iff {cw : CommandWord} : decodeCommand cw = .reset ↔ commandRst cw = true := by
  cases hrst : commandRst cw <;> cases hstart : commandStart cw <;> simp [decodeCommand, hrst, hstart]

theorem decodeCommand_eq_idle_iff {cw : CommandWord} :
    decodeCommand cw = .idle ↔ commandRst cw = false ∧ commandStart cw = false := by
  cases hrst : commandRst cw <;> cases hstart : commandStart cw <;> simp [decodeCommand, hrst, hstart]

theorem decodeCommand_eq_decode_iff {cw : CommandWord} {a b c d : Byte} :
    decodeCommand cw = .decode a b c d ↔ (commandRst cw = false ∧ commandStart cw = true) ∧
      a = commandSym0 cw ∧ b = commandSym1 cw ∧ c = commandSym2 cw ∧ d = commandSym3 cw := by
  cases hrst : commandRst cw <;> cases hstart : commandStart cw <;> simp [decodeCommand, hrst, hstart, eq_comm]

/-! ### Masks on a command word -/

/-- Masks act on `rst`, `start` and `G` apart. -/
theorem commandWord_and (r s r' s' : Bool) (g g' : GroupWord) :
    commandWord r s g &&& commandWord r' s' g' = commandWord (r && r') (s && s') (g &&& g') := by
  refine (BitVec.and_append (x₁ := BitVec.ofBool r ++ BitVec.ofBool s)).trans ?_
  rw [BitVec.and_append, BitVec.ofBool_and_ofBool, BitVec.ofBool_and_ofBool]
  rfl

/-- A mask on the control bits keeps those it selects. -/
theorem and_commandWord_zero (cw : CommandWord) (r s : Bool) :
    cw &&& commandWord r s 0 = commandWord (commandRst cw && r) (commandStart cw && s) 0 := by
  calc cw &&& commandWord r s 0
      = commandWord (commandRst cw) (commandStart cw)
          (groupWord (commandSym0 cw) (commandSym1 cw) (commandSym2 cw) (commandSym3 cw))
          &&& commandWord r s 0 := by rw [commandWord_fields]
    _ = commandWord (commandRst cw && r) (commandStart cw && s) 0 := by rw [commandWord_and]; simp

/-- `RESET`'s mask keeps `rst`. -/
theorem and_resetMask (cw : CommandWord) : cw &&& 0x200000000 = commandWord (commandRst cw) false 0 :=
  (and_commandWord_zero cw true false).trans (by simp)

/-- The mask of `IDLE` and `DECODE` keeps `rst` and `start`. -/
theorem and_selectMask (cw : CommandWord) :
    cw &&& 0x300000000 = commandWord (commandRst cw) (commandStart cw) 0 :=
  (and_commandWord_zero cw true true).trans (by simp)

theorem commandWord_zero_inj {r s r' s' : Bool} :
    commandWord r s 0 = commandWord r' s' 0 ↔ r = r' ∧ s = s' := by
  revert r s r' s'; decide

theorem and_resetMask_eq_iff {cw : CommandWord} : cw &&& 0x200000000 = 0x200000000 ↔ commandRst cw = true := by
  rw [and_resetMask, show (0x200000000 : CommandWord) = commandWord true false 0 from rfl, commandWord_zero_inj]
  simp

theorem and_selectMask_eq_zero_iff {cw : CommandWord} :
    cw &&& 0x300000000 = 0 ↔ commandRst cw = false ∧ commandStart cw = false := by
  rw [and_selectMask, show (0 : CommandWord) = commandWord false false 0 from rfl, commandWord_zero_inj]

theorem and_selectMask_eq_start_iff {cw : CommandWord} :
    cw &&& 0x300000000 = 0x100000000 ↔ commandRst cw = false ∧ commandStart cw = true := by
  rw [and_selectMask, show (0x100000000 : CommandWord) = commandWord false true 0 from rfl, commandWord_zero_inj]

/-! ### The `SYM` rows -/

/-- A code that decodes is its row's own code. -/
theorem encode_of_decode_sym {code : Byte} {i : Instr} (h : decode (.sym code) = .ok i) :
    encode i = .sym code := by
  simp only [decode, decodeSymbol] at h
  split at h
  · cases h; exact encode_of_lookup ‹_›
  · cases h

/-- The words written for a row are read back as the row, with its operands. -/
theorem decode_encode (i : Instr) : decode (encode i) = .ok i := by
  cases i
  case decode a b c d =>
    exact congrArg Except.ok (decodeCommand_eq_decode_iff.mpr (by simp))
  all_goals rfl

/-! ### Rows as masks and matches -/

theorem encodesInRow (i : Instr) : (rowPattern i).matchesBits (encode i).bits.1 (encode i).bits.2 = true := by
  cases i
  case decode a b c d => exact Laws.EncodesInRow.decode a b c d
  all_goals rfl

theorem rowPattern_of_encode_sym {i : Instr} {code : Byte} (h : encode i = .sym code) :
    rowPattern i = ⟨8, 0xFF, code.toNat⟩ := by
  cases i
  case reset => cases h
  case idle => cases h
  case decode => cases h
  all_goals
    cases h
    rfl

/-- The three patterns of command words (R65). -/
def commandPatterns : List RowPattern := [rowPattern .reset, rowPattern .idle, rowPattern (.decode 0 0 0 0)]

theorem width_of_mem_commandPatterns : ∀ p ∈ commandPatterns, p.width = 34 := by decide

/-- No two operations agree on the bits that both select by. -/
theorem commandPatterns_disjoint : ∀ p ∈ commandPatterns, ∀ q ∈ commandPatterns,
    p.value &&& q.mask = q.value &&& p.mask → p = q := by decide

/-- A row has the pattern of a command, or its own code under a full 8-bit mask. -/
theorem rowPattern_cases (i : Instr) :
    rowPattern i ∈ commandPatterns ∨ ∃ code : Byte, rowPattern i = ⟨8, 0xFF, code.toNat⟩ := by
  obtain ⟨rfl, -⟩ | ⟨rfl, -⟩ | ⟨_, _, _, _, rfl, -⟩ | ⟨⟨code, h⟩, -⟩ := exec_cases i State.reset
  · exact .inl (by decide)
  · exact .inl (by decide)
  · exact .inl (by simp [commandPatterns, rowPattern])
  · exact .inr ⟨code, rowPattern_of_encode_sym h⟩

theorem matchesBits_iff {p : RowPattern} {width w : Nat} :
    p.matchesBits width w = true ↔ p.width = width ∧ w &&& p.mask = p.value := by
  simp [RowPattern.matchesBits]

/-- Two patterns that one word meets have one width, and their values agree on the bits that both masks keep. -/
theorem values_agree_of_matchesBits {p q : RowPattern} {width w : Nat} (hp : p.matchesBits width w = true)
    (hq : q.matchesBits width w = true) : p.width = q.width ∧ p.value &&& q.mask = q.value &&& p.mask := by
  obtain ⟨hpw, hpv⟩ := matchesBits_iff.mp hp
  obtain ⟨hqw, hqv⟩ := matchesBits_iff.mp hq
  refine ⟨hpw.trans hqw.symm, ?_⟩
  rw [← hpv, ← hqv, Nat.land_assoc, Nat.land_assoc, Nat.land_comm p.mask]

/-- Rows do not overlap: patterns that one word meets are one pattern (R69). -/
theorem rowPattern_eq_of_matchesBits {i j : Instr} {width w : Nat} (hi : (rowPattern i).matchesBits width w = true)
    (hj : (rowPattern j).matchesBits width w = true) : rowPattern i = rowPattern j := by
  obtain ⟨hwidth, hvalue⟩ := values_agree_of_matchesBits hi hj
  obtain hpi | ⟨ci, hpi⟩ := rowPattern_cases i <;> obtain hpj | ⟨cj, hpj⟩ := rowPattern_cases j
  · exact commandPatterns_disjoint _ hpi _ hpj hvalue
  · rw [width_of_mem_commandPatterns _ hpi, hpj] at hwidth
    cases hwidth
  · rw [width_of_mem_commandPatterns _ hpj, hpi] at hwidth
    cases hwidth
  · have fullMask (c : Byte) : c.toNat &&& 0xFF = c.toNat := Nat.and_two_pow_sub_one_of_lt_two_pow c.isLt
    rw [hpi, hpj, fullMask, fullMask] at hvalue
    rw [hpi, hpj, hvalue]

/-- A command word meets the pattern of the operation it selects. -/
theorem matchesBits_decodeCommand (cw : CommandWord) :
    (rowPattern (decodeCommand cw)).matchesBits 34 cw.toNat = true := by
  rw [matchesBits_iff]
  cases hrst : commandRst cw with
  | true =>
    rw [decodeCommand_eq_reset_iff.mpr hrst]
    exact ⟨rfl, congrArg BitVec.toNat (and_resetMask_eq_iff.mpr hrst)⟩
  | false =>
    cases hstart : commandStart cw with
    | true =>
      rw [decodeCommand_eq_decode_iff.mpr ⟨⟨hrst, hstart⟩, rfl, rfl, rfl, rfl⟩]
      exact ⟨rfl, congrArg BitVec.toNat (and_selectMask_eq_start_iff.mpr ⟨hrst, hstart⟩)⟩
    | false =>
      rw [decodeCommand_eq_idle_iff.mpr ⟨hrst, hstart⟩]
      exact ⟨rfl, congrArg BitVec.toNat (and_selectMask_eq_zero_iff.mpr ⟨hrst, hstart⟩)⟩

theorem matchesBits_of_decode {w : InputWord} {i : Instr} (h : decode w = .ok i) :
    (rowPattern i).matchesBits w.bits.1 w.bits.2 = true := by
  cases w with
  | cmd cw =>
    cases h
    exact matchesBits_decodeCommand cw
  | sym code =>
    rw [← encode_of_decode_sym h]
    exact encodesInRow i

end Sys2Proof.Machine
end

section
/-! The regrouper as slices and concatenations (R66, R67). -/

namespace Sys2Proof.Machine

/-- The shifted fields do not overlap (R66). -/
theorem valueWord_eq_append (p0 p1 p2 p3 : SixBit) :
    valueWord p0 p1 p2 p3 = (p0 ++ p1 ++ p2 ++ p3 : BitVec (6 + 6 + 6 + 6)) := by
  apply BitVec.eq_of_getLsbD_eq
  intro i _
  simp only [getLsbD_valueWord, BitVec.getLsbD_append, Nat.sub_sub, show i - 6 < 6 ↔ i < 12 by omega,
    show i - (6 + 6) < 6 ↔ i < 18 by omega]

/-- The number of a concatenation. -/
theorem toNat_append_eq_add {m n : Nat} (x : BitVec m) (y : BitVec n) :
    (x ++ y).toNat = x.toNat * 2 ^ n + y.toNat := by
  rw [BitVec.toNat_append, ← Nat.shiftLeft_add_eq_or_of_lt y.isLt, Nat.shiftLeft_eq]

theorem candidate0_eq_extract (v : ValueWord) : candidate0 v = v.extractLsb' 16 8 := by
  apply BitVec.eq_of_getLsbD_eq
  intro i hi
  rw [getLsbD_candidate0 v i hi, BitVec.getLsbD_extractLsb', decide_eq_true hi, Bool.true_and]

theorem candidate1_eq_extract (v : ValueWord) : candidate1 v = v.extractLsb' 8 8 := by
  apply BitVec.eq_of_getLsbD_eq
  intro i hi
  rw [getLsbD_candidate1 v i hi, BitVec.getLsbD_extractLsb', decide_eq_true hi, Bool.true_and]

theorem candidate2_eq_extract (v : ValueWord) : candidate2 v = v.extractLsb' 0 8 := by
  apply BitVec.eq_of_getLsbD_eq
  intro i hi
  rw [getLsbD_candidate2 v i hi, BitVec.getLsbD_extractLsb', decide_eq_true hi, Bool.true_and, Nat.zero_add]

end Sys2Proof.Machine
end

section
/-! The fields of the group word (R64), the command word (R65) and the output record (R68): each is a slice of a
concatenation. -/

namespace Sys2Proof.Machine

/-! ### Group word and command word -/

theorem groupWord_extract_sym0 (a b c d : Byte) : (groupWord a b c d).extractLsb' 24 8 = a := by
  unfold groupWord
  rw [BitVec.extractLsb'_append_eq_of_le (by omega), BitVec.extractLsb'_append_eq_of_le (by omega),
    BitVec.extractLsb'_append_eq_left]

theorem groupWord_extract_sym1 (a b c d : Byte) : (groupWord a b c d).extractLsb' 16 8 = b := by
  unfold groupWord
  rw [BitVec.extractLsb'_append_eq_of_le (by omega), BitVec.extractLsb'_append_eq_of_le (by omega),
    BitVec.extractLsb'_append_eq_right]

theorem groupWord_extract_sym2 (a b c d : Byte) : (groupWord a b c d).extractLsb' 8 8 = c := by
  unfold groupWord
  rw [BitVec.extractLsb'_append_eq_of_le (by omega), BitVec.extractLsb'_append_eq_right]

theorem groupWord_extract_sym3 (a b c d : Byte) : (groupWord a b c d).extractLsb' 0 8 = d :=
  BitVec.extractLsb'_append_eq_right

theorem commandWord_extract_group (r s : Bool) (g : GroupWord) : (commandWord r s g).extractLsb' 0 32 = g :=
  BitVec.extractLsb'_append_eq_right

theorem toWord_ofWord (cw : CommandWord) : (InputPorts.ofWord cw).toWord = cw := commandWord_fields cw

/-! ### Output record -/

theorem record_getElem_valid (r : Registers) : r.record[27] = r.valid := by
  simpa using getLsbD_record r 27

theorem record_getElem_malformed (r : Registers) : r.record[26] = r.malformed := by
  simpa using getLsbD_record r 26

theorem record_extract_outlen (r : Registers) : r.record.extractLsb' 24 2 = r.outlen := by
  unfold Registers.record
  rw [BitVec.extractLsb'_append_eq_of_le (by omega), BitVec.extractLsb'_append_eq_of_le (by omega),
    BitVec.extractLsb'_append_eq_of_le (by omega), BitVec.extractLsb'_append_eq_right]

theorem record_extract_out0 (r : Registers) : r.record.extractLsb' 16 8 = r.out0 := by
  unfold Registers.record
  rw [BitVec.extractLsb'_append_eq_of_le (by omega), BitVec.extractLsb'_append_eq_of_le (by omega),
    BitVec.extractLsb'_append_eq_right]

theorem record_extract_out1 (r : Registers) : r.record.extractLsb' 8 8 = r.out1 := by
  unfold Registers.record
  rw [BitVec.extractLsb'_append_eq_of_le (by omega), BitVec.extractLsb'_append_eq_right]

theorem record_extract_out2 (r : Registers) : r.record.extractLsb' 0 8 = r.out2 :=
  BitVec.extractLsb'_append_eq_right

theorem ofRecord_record (r : Registers) : Registers.ofRecord r.record = r := by
  simp only [Registers.ofRecord, record_extract_out0, record_extract_out1, record_extract_out2,
    record_extract_outlen, record_getElem_valid, record_getElem_malformed]

/-! ### Chunk -/

theorem chunk_of_valid {r : Registers} (h : r.valid = true) :
    r.chunk = [r.out0, r.out1, r.out2].take r.outlen.toNat := by
  simp [Registers.chunk, h]

theorem chunk_of_not_valid {r : Registers} (h : r.valid = false) : r.chunk = [] := by
  simp [Registers.chunk, h]

end Sys2Proof.Machine
end

section
/-! Cutting a text into groups of four (R75). -/

namespace Sys2Proof.Machine

theorem groupsOf_cons (a b c d : Byte) (rest : List Byte) :
    groupsOf (a :: b :: c :: d :: rest) = (groupsOf rest).map fun is => .decode a b c d :: is := rfl

theorem groupsOf_eq_none_iff (text : List Byte) : groupsOf text = none ↔ ¬4 ∣ text.length := by
  induction text using groupsOf.induct with
  | case1 => simp [groupsOf]
  | case2 a b c d rest ih => simp [groupsOf_cons, ih, Nat.dvd_add_left (Nat.dvd_refl 4)]
  | case3 text hne hlong =>
    match text with
    | [] => exact absurd rfl hne
    | [_] => simp [groupsOf]
    | [_, _] => simp [groupsOf]
    | [_, _, _] => simp [groupsOf]
    | _ :: _ :: _ :: _ :: _ => exact absurd rfl (hlong _ _ _ _ _)

/-- The `j`-th group of a text: the `DECODE` of the four characters from `4 * j` on. -/
theorem groupsOf_getElem {text : List Byte} {is : List Instr} (h : groupsOf text = some is) :
    text.length = 4 * is.length ∧
      ∀ j, j < is.length → ∃ a b c d : Byte, text[4 * j]? = some a ∧ text[4 * j + 1]? = some b ∧
        text[4 * j + 2]? = some c ∧ text[4 * j + 3]? = some d ∧ is[j]? = some (.decode a b c d) := by
  induction text using groupsOf.induct generalizing is with
  | case1 => cases h; simp
  | case2 a b c d rest ih =>
    rw [groupsOf_cons, Option.map_eq_some_iff] at h
    obtain ⟨is, hrest, rfl⟩ := h
    obtain ⟨hlen, hgroup⟩ := ih hrest
    refine ⟨by simp only [List.length_cons]; omega, fun j hj => ?_⟩
    cases j with
    | zero => exact ⟨a, b, c, d, rfl, rfl, rfl, rfl, rfl⟩
    | succ j => exact hgroup j (Nat.lt_of_succ_lt_succ hj)
  | case3 text hne hlong => simp [groupsOf] at h

theorem stream_wellFormed_iff (text : List Byte) :
    (Line.stream text).wellFormed = true ↔ ∃ n, 1 ≤ n ∧ text.length = 4 * n := by
  simp only [Line.wellFormed, Bool.and_eq_true, decide_eq_true_eq, beq_iff_eq]
  exact ⟨fun ⟨hlong, hmod⟩ => ⟨text.length / 4, by omega, by omega⟩, fun ⟨n, hn, hlen⟩ => ⟨by omega, by omega⟩⟩

/-- A well-formed text is cut into groups: its length is a multiple of 4. -/
theorem groupsOf_ne_none_of_stream_wellFormed {text : List Byte} (h : (Line.stream text).wellFormed = true) :
    groupsOf text ≠ none := by
  obtain ⟨n, -, hlen⟩ := (stream_wellFormed_iff text).mp h
  rw [Ne, groupsOf_eq_none_iff, not_not, hlen]
  exact Nat.dvd_mul_right 4 n

theorem lineInstrs_stream_eq_none_iff (text : List Byte) :
    lineInstrs (.stream text) = none ↔ ¬(Line.stream text).wellFormed = true := by
  rw [lineInstrs]
  split
  · simp [groupsOf_ne_none_of_stream_wellFormed, *]
  · simp [*]

theorem groupsOf_of_lineInstrs_stream {text : List Byte} {is : List Instr}
    (h : lineInstrs (.stream text) = some is) : groupsOf text = some is := by
  rw [lineInstrs] at h
  split at h
  · exact h
  · cases h

theorem lineInstrs_decode_isSome_iff (text : List Byte) :
    (∃ is, lineInstrs (.decode text) = some is) ↔ text.length = 4 := by
  simp only [lineInstrs, Line.wellFormed, beq_iff_eq]
  split
  case isTrue hlen =>
    have hsome := (groupsOf_eq_none_iff text).not.mpr (by rw [hlen]; decide)
    simpa [hlen] using Option.ne_none_iff_exists'.mp hsome
  case isFalse hlen => simp [hlen]

end Sys2Proof.Machine
end

section
/-! The lookup of a `SYM` row's code: its position, its lane record and its step. -/

namespace Sys2Proof.Machine

theorem positionOf_memRead (i : Position) : positionOf (memRead i) = some i := by
  cases h : positionOf (memRead i) with
  | none => exact absurd rfl (memRead_ne_of_positionOf h i)
  | some j => rw [memRead_injective (memRead_of_positionOf h)]

theorem positionOf_eq_some_iff {c : Byte} {i : Position} : positionOf c = some i ↔ memRead i = c :=
  ⟨memRead_of_positionOf, fun h => h ▸ positionOf_memRead i⟩

theorem positionBits_extract (q : Position) : (positionBits q).extractLsb' 0 6 = BitVec.ofNat 6 q.val := by
  apply BitVec.eq_of_toNat_eq
  simp [positionBits]

/-- The lane record of the entry at an address (R63): the low six address bits, which are 0 for the padding. -/
theorem classify_memRead (q : Position) :
    classify (memRead q) = { member := true, pad := decide (q = 64), val := BitVec.ofNat 6 q.val } := by
  simp only [classify, positionOf_memRead]
  split
  · subst_vars; rfl
  · simp [positionBits_extract, *]

theorem classify_of_not_found {c : Byte} (h : positionOf c = none) :
    classify c = { member := false, pad := false, val := 0 } := by
  simp [classify, h]

theorem isMember_memRead (i : Position) : isMember (memRead i) = true := by
  simp [isMember, positionOf_memRead]

/-- What holds of a `SYM` row whose code is the ROM's entry at `q`: word, position, lane record and step. -/
theorem symbolRow_lookedUp {i : Instr} {code : Byte} {q : Position} (hword : encode i = .sym code)
    (hrom : memRead q = code) (s : State) :
    encode i = .sym code ∧ decode (.sym code) = .ok i ∧ positionOf code = some q ∧ isMember code = true ∧
      classify code = { member := true, pad := decide (q = 64), val := BitVec.ofNat 6 q.val } ∧
      exec i s = .next s := by
  refine ⟨hword, hword ▸ decode_encode i, ?_⟩
  subst hrom
  exact ⟨positionOf_memRead q, isMember_memRead q, classify_memRead q, exec_of_encode_sym hword s⟩

/-- The same for a list of rows with data symbols, whose positions are below 64. -/
theorem dataRows_lookedUp {rows : List (Instr × Byte × Position)}
    (h : ∀ row ∈ rows, encode row.1 = .sym row.2.1 ∧ memRead row.2.2 = row.2.1 ∧ row.2.2 ≠ 64) :
    ∀ row ∈ rows, ∀ s : State,
      encode row.1 = .sym row.2.1 ∧ decode (.sym row.2.1) = .ok row.1 ∧
      positionOf row.2.1 = some row.2.2 ∧ isMember row.2.1 = true ∧
      classify row.2.1 = { member := true, pad := false, val := BitVec.ofNat 6 row.2.2.val } ∧
      exec row.1 s = .next s := by
  intro row hrow s
  obtain ⟨hword, hrom, hdata⟩ := h row hrow
  simpa only [hdata, decide_false] using symbolRow_lookedUp hword hrom s

/-! ### The closed form (R61) -/

theorem toPosition_eq_some_iff {n : Nat} {i : Position} : toPosition n = some i ↔ i.val = n := by
  unfold toPosition
  split
  · simp [Fin.ext_iff, eq_comm]
  · simp only [reduceCtorEq, false_iff]
    omega

/-- Range by range, the code's place in its range is the position's. -/
theorem symCodeByRange_of_positionByRange {c : Byte} {i : Position} (h : positionByRange c = some i) :
    symCodeByRange i = c := by
  apply BitVec.eq_of_toNat_eq
  simp only [positionByRange] at h
  unfold symCodeByRange
  split_ifs at h with hupper hlower hdigit hplus hslash hpad <;> rw [toPosition_eq_some_iff] at h
  · rw [if_pos (by omega), BitVec.toNat_ofNat]; omega
  · rw [if_neg (by omega), if_pos (by omega), BitVec.toNat_ofNat]; omega
  · rw [if_neg (by omega), if_neg (by omega), if_pos (by omega), BitVec.toNat_ofNat]; omega
  · simp [h, hplus]
  · simp [h, hslash]
  · simp [h, hpad]

theorem positionByRange_memRead (i : Position) : positionByRange (memRead i) = some i := by
  revert i; decide

theorem positionByRange_eq_some_iff {c : Byte} {i : Position} : positionByRange c = some i ↔ memRead i = c :=
  ⟨fun h => symCodeByRange_eq_memRead i ▸ symCodeByRange_of_positionByRange h, fun h => h ▸ positionByRange_memRead i⟩

end Sys2Proof.Machine
end

section
/-! The statements about the encoding (30_encoding.md). -/

open Sys2Proof Sys2Proof.Machine

/-- Settles O41: `decode_encode` on every row, and back by what each operation's select bits are. -/
theorem decodeOfEncodeIsTheRow : Obligations.DecodeOfEncodeIsTheRow := by
  refine ⟨decode_encode, fun _ _ => encode_of_decode_sym, fun cw a b c d h => ?_, fun cw h => ?_, fun cw h => ?_⟩
  · rw [decode_cmd, Except.ok.injEq, decodeCommand_eq_decode_iff] at h
    obtain ⟨⟨hrst, hstart⟩, rfl, rfl, rfl, rfl⟩ := h
    rw [encode, ← hrst, ← hstart, commandWord_fields]
  · rw [decode_cmd, Except.ok.injEq, decodeCommand_eq_reset_iff] at h
    exact ⟨_, rfl, h.symm⟩
  · rw [decode_cmd, Except.ok.injEq, decodeCommand_eq_idle_iff] at h
    obtain ⟨hrst, hstart⟩ := h
    exact ⟨_, rfl, hrst.symm, hstart.symm⟩

/-- Settles O42: both sides are the same condition on `rst` and `start`, whose four values are split at the end. -/
theorem operationSelectFollowsMaskAndMatch : Obligations.OperationSelectFollowsMaskAndMatch := by
  intro cw
  simp only [decode_cmd, Except.ok.injEq, and_resetMask_eq_iff, and_selectMask_eq_zero_iff,
    and_selectMask_eq_start_iff]
  refine ⟨decodeCommand_eq_reset_iff, decodeCommand_eq_idle_iff, fun _ _ _ _ => decodeCommand_eq_decode_iff, ?_⟩
  cases commandRst cw <;> cases commandStart cw <;> simp

/-- Settles O43: a decoded word has its row's bits, and patterns that share a word are equal. -/
theorem decodedWordsMeetTheirOwnRowOnly : Obligations.DecodedWordsMeetTheirOwnRowOnly :=
  ⟨fun _ _ => matchesBits_of_decode, fun _ _ _ _ => rowPattern_eq_of_matchesBits⟩

/-- Settles O19: a concatenation's number is the sum of its fields, each shifted past those below it. -/
theorem valueWordConcatenatesTheFourFields : Obligations.ValueWordConcatenatesTheFourFields := by
  intro p0 p1 p2 p3
  refine ⟨valueWord_eq_append p0 p1 p2 p3, ?_⟩
  rw [valueWord_eq_append, toNat_append_eq_add, toNat_append_eq_add, toNat_append_eq_add]
  ring

/-- Settles O20: slices of `V`, and the regrouping of its fields. -/
theorem candidateBytesWireByWire : Obligations.CandidateBytesWireByWire :=
  ⟨fun v => ⟨candidate0_eq_extract v, candidate1_eq_extract v, candidate2_eq_extract v⟩,
    fun p0 p1 p2 p3 => ⟨candidate0_valueWord p0 p1 p2 p3, candidate1_valueWord p0 p1 p2 p3,
      candidate2_valueWord p0 p1 p2 p3⟩⟩

/-- Settles O46: the fields are slices of the record, and the chunk is cut by `OUTLEN`. -/
theorem outputRecordFields : Obligations.OutputRecordFields := by
  refine ⟨fun r => ?_, record_ofRecord, by decide, by decide, by decide, by decide⟩
  exact ⟨record_getElem_valid r, record_getElem_malformed r, record_extract_outlen r, record_extract_out0 r,
    record_extract_out1 r, record_extract_out2 r, ofRecord_record r,
    fun hvalid hlen => by rw [chunk_of_valid hvalid, hlen]; rfl,
    fun hvalid hlen => by rw [chunk_of_valid hvalid, hlen]; rfl,
    fun hvalid hlen => by rw [chunk_of_valid hvalid, hlen]; rfl, chunk_of_not_valid⟩

/-- Settles O47: a line has an expansion when it is well formed, and its groups are read by induction on the text. -/
theorem streamLineExpandsToConsecutiveDecodes : Obligations.StreamLineExpandsToConsecutiveDecodes := by
  refine ⟨fun text => ?_, fun text is h => ?_, fun text => ?_⟩
  · rw [lineInstrs_stream_eq_none_iff, stream_wellFormed_iff]
  · exact groupsOf_getElem (groupsOf_of_lineInstrs_stream h)
  · exact lineInstrs_decode_isSome_iff text

/-- Settles O1: the words and ROM entries of the 26 rows, compared one by one. -/
theorem capitalLetterSymbolsAreLookedUp : Obligations.CapitalLetterSymbolsAreLookedUp :=
  dataRows_lookedUp (by decide)

/-- Settles O2: the words and ROM entries of the 26 rows, compared one by one. -/
theorem smallLetterSymbolsAreLookedUp : Obligations.SmallLetterSymbolsAreLookedUp :=
  dataRows_lookedUp (by decide)

/-- Settles O3: the words and ROM entries of the 10 rows, compared one by one. -/
theorem digitSymbolsAreLookedUp : Obligations.DigitSymbolsAreLookedUp :=
  dataRows_lookedUp (by decide)

/-- Settles O4: the lane records tell the two data symbols from the padding. -/
theorem plusSlashAndPadSymbolsAreLookedUp : Obligations.PlusSlashAndPadSymbolsAreLookedUp := by
  intro row hrow s
  simp only [List.mem_cons, List.not_mem_nil, or_false] at hrow
  obtain rfl | rfl | rfl := hrow
  · exact symbolRow_lookedUp (code := 0x2B) (q := 62) rfl rfl s
  · exact symbolRow_lookedUp (code := 0x2F) (q := 63) rfl rfl s
  · exact symbolRow_lookedUp (code := 0x3D) (q := 64) rfl rfl s

/-- Settles O10: both searches find exactly the address of the entry equal to the code. -/
theorem closedFormAgreesWithTheTable : Obligations.ClosedFormAgreesWithTheTable :=
  ⟨fun _ => Option.ext fun _ => positionByRange_eq_some_iff.trans positionOf_eq_some_iff.symm,
    symCodeByRange_eq_memRead⟩

/-- Settles O12: a code is the entry at one address, or at none. -/
theorem laneRecordFollowsTheSymbol : Obligations.LaneRecordFollowsTheSymbol := by
  intro c
  cases h : positionOf c with
  | none =>
    have habsent := memRead_ne_of_positionOf h
    simp [classify_of_not_found h, habsent, (habsent 64).symm]
  | some q =>
    obtain rfl := memRead_of_positionOf h
    simp only [classify_memRead, memRead_injective.eq_iff]
    exact ⟨by simp, by simp, fun i hi => hi ▸ BitVec.eq_of_toNat_eq (by simp), by simp, by simp⟩

/-- Settles O44: each word is decoded as the table numbers its bits. -/
theorem wordsOfTheSpecDecodeToTheirRows : Obligations.WordsOfTheSpecDecodeToTheirRows := by
  unfold Obligations.WordsOfTheSpecDecodeToTheirRows
  decide

/-- Settles O45: the ports are slices of the words, and the word of the ports is put together from them. -/
theorem groupWordFields : Obligations.GroupWordFields :=
  ⟨fun a b c d => ⟨groupWord_extract_sym0 a b c d, groupWord_extract_sym1 a b c d, groupWord_extract_sym2 a b c d,
      groupWord_extract_sym3 a b c d⟩, by decide,
    fun r s g => ⟨commandRst_commandWord r s g, commandStart_commandWord r s g, commandWord_extract_group r s g⟩,
    ofWord_toWord, toWord_ofWord⟩
end

section
/-! The members of the alphabet as codes and as numbers (R70, R81), the position read as seven bits (R87), and the
state after a lone symbol (R82). -/

namespace Sys2Proof.Machine

/-! ### Members and non-members -/

theorem positionOf_eq_none_iff {c : Byte} : positionOf c = none ↔ ∀ i : Position, memRead i ≠ c := by
  simp only [Option.eq_none_iff_forall_ne_some, ne_eq, positionOf_eq_some_iff]

theorem isMember_iff_positionOf_ne_none {c : Byte} : isMember c = true ↔ positionOf c ≠ none :=
  Option.isSome_iff_ne_none

theorem isMember_iff_memRead {c : Byte} : isMember c = true ↔ ∃ i : Position, memRead i = c := by
  simp only [isMember, Option.isSome_iff_exists, positionOf_eq_some_iff]

theorem isMember_eq_false_iff {c : Byte} : isMember c = false ↔ positionOf c = none :=
  Option.isSome_eq_false_iff.trans Option.isNone_iff_eq_none

theorem toPosition_eq_none_iff {n : Nat} : toPosition n = none ↔ 65 ≤ n := by
  simp [toPosition]

/-- The ranges of R61 leave out the six ranges of R70. -/
theorem positionByRange_eq_none_iff {c : Byte} : positionByRange c = none ↔
    c.toNat ≤ 0x2A ∨ (0x2C ≤ c.toNat ∧ c.toNat ≤ 0x2E) ∨ (0x3A ≤ c.toNat ∧ c.toNat ≤ 0x3C) ∨
      (0x3E ≤ c.toNat ∧ c.toNat ≤ 0x40) ∨ (0x5B ≤ c.toNat ∧ c.toNat ≤ 0x60) ∨ 0x7B ≤ c.toNat := by
  simp only [positionByRange]
  split_ifs <;> simp only [toPosition_eq_none_iff, true_iff] <;> omega

/-- The codes whose lookup succeeds, as numbers, are the entries of the ROM, in another order. -/
theorem memberNumbers_perm_rom :
    ((List.range 256).filter fun n => isMember (BitVec.ofNat 8 n)).Perm
      ((List.finRange 65).map fun i => (memRead i).toNat) := by
  have hrom : ((List.finRange 65).map fun i => (memRead i).toNat).Nodup :=
    (List.nodup_finRange 65).map fun _ _ h => memRead_injective (BitVec.eq_of_toNat_eq h)
  refine (List.perm_ext_iff_of_nodup (List.nodup_range.filter _) hrom).mpr fun n => ?_
  simp only [List.mem_filter, List.mem_range, List.mem_map, List.mem_finRange, true_and, isMember_iff_memRead]
  constructor
  · rintro ⟨hn, i, hi⟩
    exact ⟨i, by rw [hi, BitVec.toNat_ofNat, Nat.mod_eq_of_lt hn]⟩
  · rintro ⟨i, rfl⟩
    exact ⟨(memRead i).isLt, i, by rw [BitVec.ofNat_toNat, BitVec.setWidth_eq]⟩

theorem length_memberNumbers : ((List.range 256).filter fun n => isMember (BitVec.ofNat 8 n)).length = 65 := by
  rw [memberNumbers_perm_rom.length_eq, List.length_map, List.length_finRange]

/-- Every one of the 256 codes is a member or a non-member. -/
theorem length_nonMemberNumbers :
    ((List.range 256).filter fun n => !isMember (BitVec.ofNat 8 n)).length = 191 := by
  have hsplit := List.length_eq_length_filter_add (l := List.range 256) fun n => isMember (BitVec.ofNat 8 n)
  rw [length_memberNumbers, List.length_range] at hsplit
  omega

/-! ### The position bits -/

/-- Bit 6 of a position is 1 for position 64 alone (R62). -/
theorem positionBits_getElem_six (q : Position) : (positionBits q)[6] = decide (q = 64) := by
  have hbit : q.val / 64 % 2 = 1 ↔ q = 64 := by
    rw [Fin.ext_iff]
    omega
  rw [← BitVec.getLsbD_eq_getElem, positionBits, BitVec.getLsbD_ofNat, Nat.testBit_eq_decide_div_mod_eq]
  simp [hbit]

theorem classifyByBits_memRead (q : Position) :
    classifyByBits (memRead q) = { member := true, pad := decide (q = 64), val := BitVec.ofNat 6 q.val } := by
  simp only [classifyByBits, positionOf_memRead, positionBits_getElem_six, positionBits_extract]

theorem classifyByBits_of_not_found {c : Byte} (h : positionOf c = none) :
    classifyByBits c = { member := false, pad := false, val := 0 } := by
  simp [classifyByBits, h]

/-! ### A lone symbol -/

/-- Taking a symbol uses it up and counts no edge. -/
theorem takeInput_of_sym_cons {s : State} {code : Byte} {rest : List InputWord}
    (h : s.env.inputs = .sym code :: rest) :
    s.takeInput = { regs := s.regs, env := { inputs := rest, edge := s.env.edge } } := by
  have hinputs : s.takeInput.env.inputs = rest := by rw [takeInput_inputs, h, List.tail_cons]
  have hedge := takeInput_edge_of_sym s code (nextInput_of_cons s _ rest h)
  rw [← hinputs, ← hedge]
  rfl

end Sys2Proof.Machine
end

section
/-! The statements about the alphabet lookup (40_alphabet_lookup.md). -/

open Sys2Proof Sys2Proof.Machine

/-- Settles O5: the step of a symbol is the state past it. -/
theorem loneSymbolStepsWithoutWriting : Obligations.LoneSymbolStepsWithoutWriting := by
  intro s code rest h
  rw [step_of_sym (nextInput_of_cons s _ rest h), takeInput_of_sym_cons h]

/-- Settles O8: the search answers an address exactly when its entry is the code; the examples are two entries of
the ROM, and a code the whole search misses. -/
theorem positionOfSearchesTheRom : Obligations.PositionOfSearchesTheRom :=
  ⟨fun _ _ => positionOf_eq_some_iff, fun _ => positionOf_eq_none_iff, positionOf_memRead 16, positionOf_padSymbol,
    by decide⟩

/-- Settles O9: the two directions of the search. -/
theorem lookupAndSymCodeAreInverse : Obligations.LookupAndSymCodeAreInverse :=
  ⟨positionOf_memRead, fun _ _ => memRead_of_positionOf⟩

/-- Settles O11: the members are counted by the ROM's 65 different entries, and the non-members are what the closed
form leaves out. -/
theorem sixtyFiveMembersAndTheNonMemberRanges : Obligations.SixtyFiveMembersAndTheNonMemberRanges := by
  refine ⟨fun _ => isMember_iff_positionOf_ne_none, isMember_memRead 64, isMember_memRead 0, by decide,
    length_memberNumbers, length_nonMemberNumbers, fun c => ?_⟩
  obtain ⟨hclosed, -⟩ := closedFormAgreesWithTheTable
  rw [isMember_eq_false_iff, ← hclosed, positionByRange_eq_none_iff]

/-- Settles O13: on the entry at a position both give the same bits of it, and on other codes both give zeros. -/
theorem classifyIsTheSplitOfThePosition : Obligations.ClassifyIsTheSplitOfThePosition := by
  intro c
  cases h : positionOf c with
  | none => rw [classifyByBits_of_not_found h, classify_of_not_found h]
  | some q =>
    obtain rfl := memRead_of_positionOf h
    rw [classifyByBits_memRead, classify_memRead]
end

section
/-! The 6-bit fields of a group with data symbols are determined by the chunk it decodes to (R119), and the run over
the groups of a byte string gives the string back (R136). -/

namespace Sys2Proof.Machine

/-! ### The fields of an appended word -/

theorem append_eq_iff {m n : Nat} {a : BitVec m} {b : BitVec n} {x : BitVec (m + n)} :
    a ++ b = x ↔ a = x.extractLsb' n m ∧ b = x.extractLsb' 0 n := by
  constructor
  · rintro rfl
    exact ⟨BitVec.extractLsb'_append_eq_left.symm, BitVec.extractLsb'_append_eq_right.symm⟩
  · rintro ⟨rfl, rfl⟩
    rw [BitVec.extractLsb'_append_extractLsb'_eq_extractLsb' (Nat.zero_add n).symm, BitVec.extractLsb'_eq_self]

/-- A 6-bit field and its top two and low four bits. -/
theorem split_two_four_iff {v : SixBit} {a : BitVec 2} {b : BitVec 4} :
    v.extractLsb' 4 2 = a ∧ v.extractLsb' 0 4 = b ↔ v = (a ++ b : BitVec (2 + 4)) := by
  rw [eq_comm (a := v), append_eq_iff, eq_comm, eq_comm (a := b)]

/-- A 6-bit field and its top four and low two bits. -/
theorem split_four_two_iff {v : SixBit} {a : BitVec 4} {b : BitVec 2} :
    v.extractLsb' 2 4 = a ∧ v.extractLsb' 0 2 = b ↔ v = (a ++ b : BitVec (4 + 2)) := by
  rw [eq_comm (a := v), append_eq_iff, eq_comm, eq_comm (a := b)]

/-- The first byte holds the first field and the top two bits of the second. -/
theorem first_byte_eq_iff {v0 v1 : SixBit} {x : Byte} : (v0 ++ v1.extractLsb' 4 2 : BitVec (6 + 2)) = x ↔
    v0 = x.extractLsb' 2 6 ∧ v1.extractLsb' 4 2 = x.extractLsb' 0 2 := append_eq_iff

/-- The second byte holds the low four bits of the second field and the top four of the third. -/
theorem second_byte_eq_iff {v1 v2 : SixBit} {y : Byte} :
    (v1.extractLsb' 0 4 ++ v2.extractLsb' 2 4 : BitVec (4 + 4)) = y ↔
      v1.extractLsb' 0 4 = y.extractLsb' 4 4 ∧ v2.extractLsb' 2 4 = y.extractLsb' 0 4 := append_eq_iff

/-- The third byte holds the low two bits of the third field and the fourth field. -/
theorem third_byte_eq_iff {v2 v3 : SixBit} {z : Byte} : (v2.extractLsb' 0 2 ++ v3 : BitVec (2 + 6)) = z ↔
    v2.extractLsb' 0 2 = z.extractLsb' 6 2 ∧ v3 = z.extractLsb' 0 6 := append_eq_iff

/-! ### The groups that decode to a chunk -/

/-- `e2(x, y)` with other bits `c` in place of the two it fills with zeros (R116). -/
def encodeTwoWith (x y : Byte) (c : BitVec 2) : Group :=
  { s0 := dataSymbol (x.extractLsb' 2 6)
    s1 := dataSymbol (x.extractLsb' 0 2 ++ y.extractLsb' 4 4)
    s2 := dataSymbol (y.extractLsb' 0 4 ++ c)
    s3 := padSymbol }

/-- `e1(x)` with other bits `b` in place of the four it fills with zeros (R116). -/
def encodeOneWith (x : Byte) (b : BitVec 4) : Group :=
  { s0 := dataSymbol (x.extractLsb' 2 6)
    s1 := dataSymbol (x.extractLsb' 0 2 ++ b)
    s2 := padSymbol
    s3 := padSymbol }

theorem encodeTwoWith_decoded (x y : Byte) (c : BitVec 2) : (encodeTwoWith x y c).decoded = .ok 2 x y 0 := by
  rw [encodeTwoWith, padSymbol_eq]
  exact (decodeGroup_data_pad ..).trans (by rw [append_fields_first, append_fields_second])

theorem encodeOneWith_decoded (x : Byte) (b : BitVec 4) : (encodeOneWith x b).decoded = .ok 1 x 0 0 := by
  rw [encodeOneWith, padSymbol_eq]
  exact (decodeGroup_data_pad_pad ..).trans (by rw [append_fields_first])

/-- A group with a chunk has one of the three legal shapes; its symbols and its result. -/
theorem decoded_cases (g : Group) :
    (∃ v0 v1 v2 v3, g = ⟨dataSymbol v0, dataSymbol v1, dataSymbol v2, dataSymbol v3⟩ ∧ g.decoded =
      .ok 3 (v0 ++ v1.extractLsb' 4 2) (v1.extractLsb' 0 4 ++ v2.extractLsb' 2 4) (v2.extractLsb' 0 2 ++ v3)) ∨
    (∃ v0 v1 v2, g = ⟨dataSymbol v0, dataSymbol v1, dataSymbol v2, padSymbol⟩ ∧ g.decoded =
      .ok 2 (v0 ++ v1.extractLsb' 4 2) (v1.extractLsb' 0 4 ++ v2.extractLsb' 2 4) 0) ∨
    (∃ v0 v1, g = ⟨dataSymbol v0, dataSymbol v1, padSymbol, padSymbol⟩ ∧ g.decoded =
      .ok 1 (v0 ++ v1.extractLsb' 4 2) 0 0) ∨
    g.decoded = .malformed := by
  obtain ⟨s0, s1, s2, s3⟩ := g
  rw [padSymbol_eq]
  obtain ⟨v0, v1, v2, v3, rfl, rfl, rfl, rfl, -⟩ | ⟨v0, v1, v2, rfl, rfl, rfl, rfl, -⟩ |
    ⟨v0, v1, rfl, rfl, rfl, rfl, -⟩ | ⟨-, -, -, hd⟩ := decodeGroup_cases s0 s1 s2 s3
  · exact .inl ⟨v0, v1, v2, v3, rfl, decodeGroup_data ..⟩
  · exact .inr (.inl ⟨v0, v1, v2, rfl, decodeGroup_data_pad ..⟩)
  · exact .inr (.inr (.inl ⟨v0, v1, rfl, decodeGroup_data_pad_pad ..⟩))
  · exact .inr (.inr (.inr hd))

/-- Three bytes come from `e3` of them alone. -/
theorem decoded_eq_three_iff {g : Group} {x y z : Byte} : g.decoded = .ok 3 x y z ↔ encodeThree x y z = g := by
  refine ⟨fun h => ?_, fun h => h ▸ encodeThree_decoded x y z⟩
  obtain ⟨v0, v1, v2, v3, rfl, hd⟩ | ⟨_, _, _, -, hd⟩ | ⟨_, _, -, hd⟩ | hd := decoded_cases g <;> rw [hd] at h
  · simp only [GroupResult.ok.injEq, first_byte_eq_iff, second_byte_eq_iff, third_byte_eq_iff] at h
    obtain ⟨-, ⟨h0, h1⟩, ⟨h1', h2⟩, h2', h3⟩ := h
    rw [encodeThree, h0, split_two_four_iff.mp ⟨h1, h1'⟩, split_four_two_iff.mp ⟨h2, h2'⟩, h3]
  all_goals cases h

/-- Two bytes come from the four groups that `e2` of them stands for. -/
theorem decoded_eq_two_iff {g : Group} {x y : Byte} :
    g.decoded = .ok 2 x y 0 ↔ ∃ c, encodeTwoWith x y c = g := by
  refine ⟨fun h => ?_, fun ⟨c, h⟩ => h ▸ encodeTwoWith_decoded x y c⟩
  obtain ⟨_, _, _, _, -, hd⟩ | ⟨v0, v1, v2, rfl, hd⟩ | ⟨_, _, -, hd⟩ | hd := decoded_cases g <;> rw [hd] at h
  · cases h
  · simp only [GroupResult.ok.injEq, first_byte_eq_iff, second_byte_eq_iff] at h
    obtain ⟨-, ⟨h0, h1⟩, ⟨h1', h2⟩, -⟩ := h
    exact ⟨v2.extractLsb' 0 2, by
      rw [encodeTwoWith, h0, split_two_four_iff.mp ⟨h1, h1'⟩, ← split_four_two_iff.mp ⟨h2, rfl⟩]⟩
  all_goals cases h

/-- One byte comes from the sixteen groups that `e1` of it stands for. -/
theorem decoded_eq_one_iff {g : Group} {x : Byte} :
    g.decoded = .ok 1 x 0 0 ↔ ∃ b, encodeOneWith x b = g := by
  refine ⟨fun h => ?_, fun ⟨b, h⟩ => h ▸ encodeOneWith_decoded x b⟩
  obtain ⟨_, _, _, _, -, hd⟩ | ⟨_, _, _, -, hd⟩ | ⟨v0, v1, rfl, hd⟩ | hd := decoded_cases g <;> rw [hd] at h
  · cases h
  · cases h
  · simp only [GroupResult.ok.injEq, first_byte_eq_iff] at h
    obtain ⟨-, ⟨h0, h1⟩, -⟩ := h
    exact ⟨v1.extractLsb' 0 4, by rw [encodeOneWith, h0, ← split_two_four_iff.mp ⟨h1, rfl⟩]⟩
  · cases h

/-! ### A run over groups -/

/-- The cycles of a run of `DECODE` edges hold the result of each group. -/
theorem runOn_groups (s : State) (gs : List Group) :
    runOn s (gs.map fun g => encode g.instr) = gs.map fun g => g.decoded.registers := by
  induction gs generalizing s with
  | nil => exact runOn_nil s
  | cons g gs ih =>
    have hword : encode g.instr = .cmd g.ports.toWord := rfl
    rw [List.map_cons, hword, runOn_cons_cmd, ofWord_toWord, nextRegisters_ports, ih, List.map_cons]

theorem decodedStream_cons (r : Registers) (rs : List Registers) :
    decodedStream (r :: rs) = r.chunk ++ decodedStream rs := List.flatMap_cons

theorem chunk_registers_ok (n : BitVec 2) (b0 b1 b2 : Byte) :
    (GroupResult.ok n b0 b1 b2).registers.chunk = [b0, b1, b2].take n.toNat := chunk_of_valid rfl

/-- The groups of a byte string carry its bytes three by three, and the one or two over in the last. -/
theorem decodedStream_encodeBytes (bytes : List Byte) :
    decodedStream ((encodeBytes bytes).map fun g => g.decoded.registers) = bytes := by
  induction bytes using encodeBytes.induct with
  | case1 x y z rest ih =>
    rw [encodeBytes, List.map_cons, decodedStream_cons, encodeThree_decoded, chunk_registers_ok, ih]
    rfl
  | case2 x y => rw [encodeBytes, List.map_singleton, encodeTwo_decoded]; rfl
  | case3 x => rw [encodeBytes, List.map_singleton, encodeOne_decoded]; rfl
  | case4 => rfl

/-- No group of a byte string is malformed. -/
theorem errorCount_encodeBytes (bytes : List Byte) :
    errorCount ((encodeBytes bytes).map fun g => g.decoded.registers) = 0 := by
  induction bytes using encodeBytes.induct with
  | case1 x y z rest ih =>
    rw [encodeBytes, List.map_cons, encodeThree_decoded]
    exact ih
  | case2 x y => rw [encodeBytes, List.map_singleton, encodeTwo_decoded]; rfl
  | case3 x => rw [encodeBytes, List.map_singleton, encodeOne_decoded]; rfl
  | case4 => rfl

/-! ### The classes of a group's symbols -/

theorem classOf_eq_data_iff {c : Byte} : classOf c = .data ↔ ∃ v, dataSymbol v = c := by
  refine ⟨fun h => ?_, fun ⟨v, hv⟩ => hv ▸ classOf_dataSymbol v⟩
  obtain ⟨v, rfl, -⟩ | ⟨-, hc, -⟩ | ⟨-, hc, -⟩ := lane_cases c
  · exact ⟨v, rfl⟩
  all_goals rw [hc] at h; cases h

theorem classOf_eq_padding_iff {c : Byte} : classOf c = .padding ↔ c = 0x3D := by
  refine ⟨fun h => ?_, fun h => h ▸ classOf_padSymbol⟩
  obtain ⟨v, -, hc, -⟩ | ⟨rfl, -⟩ | ⟨-, hc, -⟩ := lane_cases c
  · rw [hc] at h; cases h
  · rfl
  · rw [hc] at h; cases h

/-- The shape of a group, symbol by symbol. -/
theorem shapeOf_eq_iff {s0 s1 s2 s3 : Byte} {k0 k1 k2 k3 : SymbolClass} : shapeOf s0 s1 s2 s3 = [k0, k1, k2, k3] ↔
    classOf s0 = k0 ∧ classOf s1 = k1 ∧ classOf s2 = k2 ∧ classOf s3 = k3 := by
  simp [shapeOf]

/-- Four data symbols decode to three bytes (R106). -/
theorem decoded_of_data_shape {g : Group} (h : shapeOf g.s0 g.s1 g.s2 g.s3 = [.data, .data, .data, .data]) :
    ∃ x y z : Byte, g.decoded = .ok 3 x y z := by
  simp only [shapeOf_eq_iff, classOf_eq_data_iff] at h
  obtain ⟨⟨v0, h0⟩, ⟨v1, h1⟩, ⟨v2, h2⟩, v3, h3⟩ := h
  rw [Group.decoded, ← h0, ← h1, ← h2, ← h3, decodeGroup_data]
  exact ⟨_, _, _, rfl⟩

theorem encodeThree_shape (x y z : Byte) : shapeOf (encodeThree x y z).s0 (encodeThree x y z).s1
    (encodeThree x y z).s2 (encodeThree x y z).s3 = [.data, .data, .data, .data] :=
  shapeOf_eq_iff.mpr ⟨classOf_dataSymbol _, classOf_dataSymbol _, classOf_dataSymbol _, classOf_dataSymbol _⟩

end Sys2Proof.Machine
end

section
/-! The round trip of the statements about `DecodeGroup` (41_group_decode.md R119). -/

open Sys2Proof Sys2Proof.Machine

/-- Settles O25: `e3` is the inverse of decoding on `DDDD`, both ways. -/
theorem inverseConstructionsDecodeToTheirBytes : Obligations.InverseConstructionsDecodeToTheirBytes :=
  ⟨encodeThree_decoded, encodeTwo_decoded, encodeOne_decoded,
    fun x y z => ⟨encodeThree x y z, encodeThree_shape x y z, encodeThree_decoded x y z,
      fun _ _ h => (decoded_eq_three_iff.mp h).symm⟩,
    fun _ => decoded_of_data_shape⟩

/-- Settles O48: the cycles of the run are the results of the groups, whose chunks put the bytes together. -/
theorem streamOfEncodedBytesIsTheBytes : Obligations.StreamOfEncodedBytesIsTheBytes := by
  intro s bytes
  simp only [runOn_groups]
  exact ⟨decodedStream_encodeBytes bytes, errorCount_encodeBytes bytes, List.length_map _⟩
end

section
/-! The checks of R101 to R106 on the lanes of a group, its error kind (R120), and the document's scan (R114). -/

namespace Sys2Proof.Machine

/-! ### The lane record by the symbol -/

theorem classify_member (c : Byte) : (classify c).member = isMember c := by
  cases h : positionOf c with
  | none => rw [classify_of_not_found h, isMember_eq_false_iff.mpr h]
  | some q => rw [← memRead_of_positionOf h, classify_memRead, isMember_memRead]

theorem classify_pad_iff {c : Byte} : (classify c).pad = true ↔ c = 0x3D := by
  obtain ⟨v, rfl, -, hl⟩ | ⟨rfl, -, hl⟩ | ⟨hc, -, hl⟩ := lane_cases c <;> rw [hl]
  · exact iff_of_false Bool.false_ne_true (dataSymbol_ne_padSymbol v)
  · exact iff_of_true rfl rfl
  · exact iff_of_false Bool.false_ne_true hc

/-- A member of the alphabet is a data symbol or the padding symbol. -/
theorem symbol_of_isMember {c : Byte} (h : isMember c = true) : (∃ v, c = dataSymbol v) ∨ c = 0x3D := by
  rw [← classify_member] at h
  obtain ⟨v, hv, -⟩ | ⟨hc, -⟩ | ⟨-, -, hl⟩ := lane_cases c
  · exact .inl ⟨v, hv⟩
  · exact .inr hc
  · rw [hl] at h; cases h

/-! ### Malformed groups -/

/-- Only a group that fails the check of R106 is malformed. -/
theorem decodeGroup_eq_malformed_iff {s0 s1 s2 s3 : Byte} : decodeGroup s0 s1 s2 s3 = .malformed ↔
    groupOk (classify s0) (classify s1) (classify s2) (classify s3) = false := by
  simp [decodeGroup, outputMux]

theorem decodeGroup_of_headPad {s0 s1 s2 s3 : Byte} (h : headPad (classify s0) (classify s1) = true) :
    decodeGroup s0 s1 s2 s3 = .malformed :=
  decodeGroup_eq_malformed_iff.mpr (by simp [groupOk, h])

theorem decodeGroup_of_not_allMember {s0 s1 s2 s3 : Byte}
    (h : allMember (classify s0) (classify s1) (classify s2) (classify s3) = false) :
    decodeGroup s0 s1 s2 s3 = .malformed :=
  decodeGroup_eq_malformed_iff.mpr (by simp [groupOk, h])

theorem decodeGroup_of_gap {s0 s1 s2 s3 : Byte} (h : gap (classify s2) (classify s3) = true) :
    decodeGroup s0 s1 s2 s3 = .malformed :=
  decodeGroup_eq_malformed_iff.mpr (by simp [groupOk, h])

theorem headPad_classify_iff {s0 s1 : Byte} : headPad (classify s0) (classify s1) = true ↔ s0 = 0x3D ∨ s1 = 0x3D := by
  rw [headPad, Bool.or_eq_true, classify_pad_iff, classify_pad_iff]

theorem gap_eq_true_iff {l2 l3 : Lane} : gap l2 l3 = true ↔ l2.pad = true ∧ l3.pad = false := by
  rw [gap, Bool.and_eq_true, Bool.not_eq_true']

theorem gap_classify_iff {s2 s3 : Byte} : gap (classify s2) (classify s3) = true ↔ s2 = 0x3D ∧ s3 ≠ 0x3D := by
  rw [gap_eq_true_iff, ← Bool.not_eq_true, classify_pad_iff, classify_pad_iff]

theorem allMember_eq_all (s0 s1 s2 s3 : Byte) :
    allMember (classify s0) (classify s1) (classify s2) (classify s3) = [s0, s1, s2, s3].all isMember := by
  simp [allMember, classify_member, Bool.and_assoc]

theorem allMember_eq_false_iff {s0 s1 s2 s3 : Byte} :
    allMember (classify s0) (classify s1) (classify s2) (classify s3) = false ↔
      isMember s0 = false ∨ isMember s1 = false ∨ isMember s2 = false ∨ isMember s3 = false := by
  simp [allMember_eq_all, Classical.or_iff_not_imp_left]

/-- At most two padding symbols stand at positions 2 and 3. -/
theorem headPad_of_three_le_padCount {l0 l1 l2 l3 : Lane} (h : 3 ≤ padCount l0 l1 l2 l3) :
    headPad l0 l1 = true := by
  by_contra hhead
  obtain ⟨h0, h1⟩ : l0.pad = false ∧ l1.pad = false := by simpa [headPad] using hhead
  have := Bool.toNat_le l2.pad
  have := Bool.toNat_le l3.pad
  simp only [padCount, h0, h1, Bool.toNat_false] at h
  omega

/-! ### The error kind -/

theorem errKind_of_headPad {s0 s1 s2 s3 : Byte} (h : headPad (classify s0) (classify s1) = true) :
    errKind s0 s1 s2 s3 = .invalidPaddingPlacement := if_pos h

theorem errKind_of_not_allMember {s0 s1 s2 s3 : Byte} (hhead : ¬headPad (classify s0) (classify s1) = true)
    (h : allMember (classify s0) (classify s1) (classify s2) (classify s3) = false) :
    errKind s0 s1 s2 s3 = .invalidCharacter := (if_neg hhead).trans (if_pos h)

theorem errKind_of_gap {s0 s1 s2 s3 : Byte} (hhead : ¬headPad (classify s0) (classify s1) = true)
    (hall : ¬allMember (classify s0) (classify s1) (classify s2) (classify s3) = false)
    (h : gap (classify s2) (classify s3) = true) : errKind s0 s1 s2 s3 = .invalidPaddingPlacement :=
  (if_neg hhead).trans ((if_neg hall).trans (if_pos h))

theorem errKind_of_no_cause {s0 s1 s2 s3 : Byte} (hhead : ¬headPad (classify s0) (classify s1) = true)
    (hall : ¬allMember (classify s0) (classify s1) (classify s2) (classify s3) = false)
    (h : ¬gap (classify s2) (classify s3) = true) : errKind s0 s1 s2 s3 = .none :=
  (if_neg hhead).trans ((if_neg hall).trans (if_neg h))

/-- The causes of R120, in the order of their priority, and what the group decodes to. -/
theorem errKind_cases (s0 s1 s2 s3 : Byte) :
    (errKind s0 s1 s2 s3 = .none ∧ decodeGroup s0 s1 s2 s3 ≠ .malformed) ∨
    ((errKind s0 s1 s2 s3 = .invalidCharacter ∨ errKind s0 s1 s2 s3 = .invalidPaddingPlacement) ∧
      decodeGroup s0 s1 s2 s3 = .malformed) := by
  by_cases hhead : headPad (classify s0) (classify s1) = true
  · exact .inr ⟨.inr (errKind_of_headPad hhead), decodeGroup_of_headPad hhead⟩
  by_cases hall : allMember (classify s0) (classify s1) (classify s2) (classify s3) = false
  · exact .inr ⟨.inl (errKind_of_not_allMember hhead hall), decodeGroup_of_not_allMember hall⟩
  by_cases hgap : gap (classify s2) (classify s3) = true
  · exact .inr ⟨.inr (errKind_of_gap hhead hall hgap), decodeGroup_of_gap hgap⟩
  · refine .inl ⟨errKind_of_no_cause hhead hall hgap, ?_⟩
    rw [Ne, decodeGroup_eq_malformed_iff]
    simp_all [groupOk]

theorem isMember_eq_class (c : Byte) : isMember c = (classOf c != .nonMember) := by
  rw [← classify_member]
  obtain ⟨v, -, hc, hl⟩ | ⟨-, hc, hl⟩ | ⟨-, hc, hl⟩ := lane_cases c <;> rw [hc, hl] <;> rfl

theorem classify_pad_eq_class (c : Byte) : (classify c).pad = (classOf c == .padding) := by
  obtain ⟨v, -, hc, hl⟩ | ⟨-, hc, hl⟩ | ⟨-, hc, hl⟩ := lane_cases c <;> rw [hc, hl] <;> rfl

/-- The priority of R120 gives each shape the cause in the table of R141: head padding first, then a non-member at
each position in turn, then the shape with a gap and the three legal ones. -/
theorem errKind_eq_causeOfShape (s0 s1 s2 s3 : Byte) :
    errKind s0 s1 s2 s3 = causeOfShape (shapeOf s0 s1 s2 s3) := by
  simp only [errKind, headPad, allMember, gap, classify_member, isMember_eq_class, classify_pad_eq_class, shapeOf]
  generalize classOf s0 = k0, classOf s1 = k1, classOf s2 = k2, classOf s3 = k3
  match k0, k1, k2, k3 with
  | .padding, _, _, _ => rfl
  | .data, .padding, _, _ | .nonMember, .padding, _, _ => rfl
  | .nonMember, .data, _, _ | .nonMember, .nonMember, _, _ => rfl
  | .data, .nonMember, _, _ => rfl
  | .data, .data, .nonMember, _ => rfl
  | .data, .data, .data, .nonMember | .data, .data, .padding, .nonMember => rfl
  | .data, .data, .padding, .data => rfl
  | .data, .data, .data, .data | .data, .data, .data, .padding | .data, .data, .padding, .padding => rfl

/-! ### The document's scan -/

theorem positionOf_dataSymbol (v : SixBit) : positionOf (dataSymbol v) = some ⟨v.toNat, by omega⟩ :=
  positionOf_memRead _

theorem dataPosition_ne_pad (v : SixBit) : (⟨v.toNat, by omega⟩ : Position) ≠ 64 := by
  rw [Ne, Fin.ext_iff]
  exact Nat.ne_of_lt v.isLt

/-- Before any padding, a data symbol contributes its value. -/
theorem scanSymbols_data (v : SixBit) (rest : List Byte) :
    scanSymbols (dataSymbol v :: rest) 3 = (scanSymbols rest 3).map fun r => (r.1, v :: r.2) := by
  simp [scanSymbols, positionOf_dataSymbol, dataPosition_ne_pad, positionBits_extract]

/-- After padding, a data symbol is rejected (R105). -/
theorem scanSymbols_data_after_pad (v : SixBit) (rest : List Byte) {n : Nat} (h : n < 3) :
    scanSymbols (dataSymbol v :: rest) n = none := by
  simp [scanSymbols, positionOf_dataSymbol, dataPosition_ne_pad, h]

/-- A padding symbol that leaves a length takes one off it (R103). -/
theorem scanSymbols_pad (rest : List Byte) {n : Nat} (h : 1 < n) :
    scanSymbols (0x3D :: rest) n = (scanSymbols rest (n - 1)).map fun r => (r.1, 0 :: r.2) := by
  simp only [scanSymbols, positionOf_padSymbol, if_true, if_neg (Nat.not_le.mpr h)]

/-- The scan looks every symbol up, and a non-member ends it if nothing did before (R102). -/
theorem scanSymbols_of_nonMember {c : Byte} (hc : isMember c = false) {cs : List Byte} (hmem : c ∈ cs) (n : Nat) :
    scanSymbols cs n = none := by
  induction cs generalizing n with
  | nil => cases hmem
  | cons d rest ih =>
    obtain rfl | hrest := List.mem_cons.mp hmem
    · simp [scanSymbols, isMember_eq_false_iff.mp hc]
    · simp only [scanSymbols, ih hrest, Option.map_none]
      split <;> [rfl; split_ifs <;> rfl]

/-- With no padding at the head the scan answers exactly on the groups that R106 accepts, and answers their length
and contributions. -/
theorem scanSymbols_group {s0 s1 s2 s3 : Byte} (hhead : ¬headPad (classify s0) (classify s1) = true) :
    scanSymbols [s0, s1, s2, s3] 3 =
      if groupOk (classify s0) (classify s1) (classify s2) (classify s3) then
        some (chunkLength (classify s2) (classify s3),
          [(classify s0).val, (classify s1).val, (classify s2).val, (classify s3).val])
      else none := by
  by_cases hall : [s0, s1, s2, s3].all isMember = true
  · simp only [List.all_cons, List.all_nil, Bool.and_true, Bool.and_eq_true] at hall
    obtain ⟨m0, m1, m2, m3⟩ := hall
    rw [headPad_classify_iff, not_or] at hhead
    obtain ⟨v0, rfl⟩ := (symbol_of_isMember m0).resolve_right hhead.1
    obtain ⟨v1, rfl⟩ := (symbol_of_isMember m1).resolve_right hhead.2
    rw [scanSymbols_data, scanSymbols_data, classify_dataSymbol, classify_dataSymbol]
    obtain ⟨v2, rfl⟩ | rfl := symbol_of_isMember m2 <;> obtain ⟨v3, rfl⟩ | rfl := symbol_of_isMember m3
    · rw [scanSymbols_data, scanSymbols_data, classify_dataSymbol, classify_dataSymbol]
      rfl
    · rw [scanSymbols_data, scanSymbols_pad [] (by decide), classify_dataSymbol, classify_padSymbol]
      rfl
    · rw [scanSymbols_pad _ (by decide), scanSymbols_data_after_pad v3 [] (by decide), classify_dataSymbol,
        classify_padSymbol]
      rfl
    · rw [scanSymbols_pad _ (by decide), scanSymbols_pad [] (by decide), classify_padSymbol]
      rfl
  · obtain ⟨c, hmem, hc⟩ := List.all_eq_false.mp (Bool.eq_false_iff.mpr hall)
    rw [scanSymbols_of_nonMember (Bool.eq_false_iff.mpr hc) hmem, groupOk, allMember_eq_all, Bool.eq_false_iff.mpr hall]
    rfl

theorem headPad_iff_positionOf {s0 s1 : Byte} : headPad (classify s0) (classify s1) = true ↔
    positionOf s0 = some 64 ∨ positionOf s1 = some 64 := by
  rw [headPad_classify_iff, positionOf_eq_some_iff, positionOf_eq_some_iff, eq_comm (a := s0), eq_comm (a := s1)]
  rfl

end Sys2Proof.Machine
end

section
/-! The statements about `DecodeGroup` (41_group_decode.md). -/

open Sys2Proof Sys2Proof.Machine

/-- Settles O14: head padding alone fails the check of R106. -/
theorem headPaddingIsMalformed : Obligations.HeadPaddingIsMalformed :=
  fun _ _ _ _ => decodeGroup_of_headPad

/-- Settles O15: one non-member alone fails the check of R106. -/
theorem nonMemberAnywhereIsMalformed : Obligations.NonMemberAnywhereIsMalformed :=
  fun _ _ _ _ h => decodeGroup_of_not_allMember (allMember_eq_false_iff.mpr h)

/-- Settles O16: of three padding symbols one stands at the head, and a chunk has 1, 2 or 3 bytes. -/
theorem threePaddingSymbolsAreMalformed : Obligations.ThreePaddingSymbolsAreMalformed := by
  refine fun s0 s1 s2 s3 => ⟨fun h => ?_, fun n b0 b1 b2 h => ?_⟩
  · have hhead := headPad_of_three_le_padCount h
    exact ⟨decodeGroup_of_headPad hhead, hhead⟩
  · obtain hn | ⟨hn, -⟩ | ⟨hn, -⟩ := decodeGroup_ok_padded h
    · exact .inr (.inr hn)
    · exact .inr (.inl hn)
    · exact .inl hn

/-- Settles O17: padding at position 0 or 1 is at the head, and at position 2 it leaves a gap. -/
theorem dataAfterPaddingIsMalformed : Obligations.DataAfterPaddingIsMalformed := by
  refine ⟨fun g i j hij hi hj => ?_, fun v0 v1 v3 => ?_⟩
  · match i, j, hij with
    | 0, _, _ => exact decodeGroup_of_headPad (headPad_classify_iff.mpr (.inl hi))
    | 1, _, _ => exact decodeGroup_of_headPad (headPad_classify_iff.mpr (.inr hi))
    | 2, 3, _ => exact decodeGroup_of_gap (gap_classify_iff.mpr ⟨hi, hj⟩)
    | 3, j, hij => exact absurd hij (Nat.not_lt.mpr (Fin.le_last j))
  · have hgap := gap_classify_iff.mpr ⟨rfl, dataSymbol_ne_padSymbol v3⟩
    exact ⟨decodeGroup_of_gap hgap, hgap, by
      simp only [classify_dataSymbol, classify_padSymbol]
      exact ⟨rfl, rfl, show 1 < 3 by decide⟩⟩

/-- Settles O18: the shape decides the result, shape by shape. -/
theorem wellFormedShapesAreExactlyThree : Obligations.WellFormedShapesAreExactlyThree := by
  intro s0 s1 s2 s3
  refine ⟨by simp [groupOk, headPad, gap, and_assoc, imp_iff_not_or], by
    rw [Ne, decodeGroup_eq_malformed_iff, Bool.not_eq_false], ?_⟩
  obtain ⟨_, _, _, _, rfl, rfl, rfl, rfl, hd⟩ | ⟨_, _, _, rfl, rfl, rfl, rfl, hd⟩ | ⟨_, _, rfl, rfl, rfl, rfl, hd⟩ |
    ⟨hthree, htwo, hone, hd⟩ := decodeGroup_cases s0 s1 s2 s3 <;> rw [hd]
  · simp [shapeOf, classOf_dataSymbol]
  · simp only [shapeOf, classOf_dataSymbol, classOf_padSymbol]
    simp
  · simp only [shapeOf, classOf_dataSymbol, classOf_padSymbol]
    simp
  · simp [hthree, htwo, hone]

/-- Settles O21: the result of each legal shape, written to the registers. -/
theorem decodeWritesTheChunkOfEachLegalShape : Obligations.DecodeWritesTheChunkOfEachLegalShape := by
  intro s v0 v1 v2 v3
  simp only [exec_decode, decodeGroup_data, decodeGroup_data_pad, decodeGroup_data_pad_pad]
  exact ⟨rfl, rfl, rfl⟩

/-- Settles O24: the bytes of a padded group name the kept bits alone. -/
theorem droppedBitsOfAPaddedGroupAreIgnored : Obligations.DroppedBitsOfAPaddedGroupAreIgnored := by
  refine ⟨fun v0 v1 w1 h => ?_, fun v0 v1 v2 w2 h => ?_⟩
  · rw [decodeGroup_data_pad_pad, decodeGroup_data_pad_pad, h]
    exact ⟨rfl, GroupResult.noConfusion⟩
  · rw [decodeGroup_data_pad, decodeGroup_data_pad, h]
    exact ⟨rfl, GroupResult.noConfusion⟩

/-- Settles O27: with no padding at the head, the scan answers exactly when `groupOk` holds. -/
theorem sequentialAlgorithmGivesTheSameResult : Obligations.SequentialAlgorithmGivesTheSameResult := by
  intro s0 s1 s2 s3
  by_cases hhead : headPad (classify s0) (classify s1) = true
  · rw [decodeGroup_of_headPad hhead, decodeGroupInOrder, if_pos (headPad_iff_positionOf.mp hhead)]
  · rw [decodeGroupInOrder, if_neg (mt headPad_iff_positionOf.mpr hhead), scanSymbols_group hhead]
    simp only [decodeGroup]
    cases groupOk (classify s0) (classify s1) (classify s2) (classify s3) <;> rfl

/-- Settles O28: the clauses are the branches of R120, and `errKind_cases` sets them against the result. -/
theorem errKindFollowsThePriorityOfCauses : Obligations.ErrKindFollowsThePriorityOfCauses := by
  refine ⟨fun s0 s1 s2 s3 => ?_, by decide, by decide, by decide, by decide, by decide, by decide⟩
  dsimp only
  rw [← Bool.or_eq_true, ← headPad, ← allMember_eq_false_iff, ← gap_eq_true_iff]
  refine ⟨fun hhead => congrArg ErrKind.code (errKind_of_headPad hhead),
    fun hhead hmember => congrArg ErrKind.code (errKind_of_not_allMember hhead hmember),
    fun hhead hmember hgap => congrArg ErrKind.code (errKind_of_gap hhead hmember hgap),
    fun hhead hmember hgap => congrArg ErrKind.code (errKind_of_no_cause hhead hmember hgap),
    ?_, ?_, errKind_eq_causeOfShape s0 s1 s2 s3⟩
  · obtain ⟨he, hd⟩ | ⟨he | he, hd⟩ := errKind_cases s0 s1 s2 s3 <;> simp [he, hd, ErrKind.code]
  · obtain ⟨he, -⟩ | ⟨he | he, -⟩ := errKind_cases s0 s1 s2 s3 <;> simp [he, ErrKind.code]
end

section
/-! How many groups there are of each shape and for each chunk (R121). -/

namespace Sys2Proof.Machine

/-- A predicate that holds exactly on the values of an injective function holds as often as the function has
arguments. -/
theorem card_of_range {α β : Type} {f : α → β} (hf : Function.Injective f) {p : β → Prop}
    (h : ∀ b, p b ↔ ∃ a, f a = b) : Nat.card { b // p b } = Nat.card α :=
  Nat.card_congr ((Equiv.subtypeEquivRight h).trans (Equiv.ofInjective f hf).symm)

theorem card_bitVec (n : Nat) : Nat.card (BitVec n) = 2 ^ n := by
  rw [Nat.card_congr BitVec.equivFin.toEquiv, Nat.card_fin]

theorem dataSymbol_injective : Function.Injective dataSymbol := fun _ _ h =>
  BitVec.eq_of_toNat_eq (Fin.mk.inj (memRead_injective h))

theorem card_class_data : Nat.card { c // classOf c = .data } = 64 :=
  (card_of_range dataSymbol_injective fun _ => classOf_eq_data_iff).trans (card_bitVec 6)

theorem card_class_padding : Nat.card { c // classOf c = .padding } = 1 := by
  rw [Nat.card_congr (Equiv.subtypeEquivRight fun _ => classOf_eq_padding_iff), Nat.card_unique]

/-! ### Groups of a shape -/

/-- A group is its four symbols. -/
def groupEquiv : Group ≃ Byte × Byte × Byte × Byte where
  toFun g := (g.s0, g.s1, g.s2, g.s3)
  invFun s := ⟨s.1, s.2.1, s.2.2.1, s.2.2.2⟩

theorem card_group : Nat.card Group = 4294967296 := by
  rw [Nat.card_congr groupEquiv, Nat.card_prod, Nat.card_prod, Nat.card_prod, card_bitVec]
  norm_num

theorem finite_group : Finite Group := Finite.of_equiv _ groupEquiv.symm

/-- A group of a shape is a symbol of each of the shape's classes. -/
def shapeEquiv (k0 k1 k2 k3 : SymbolClass) : { g : Group // shapeOf g.s0 g.s1 g.s2 g.s3 = [k0, k1, k2, k3] } ≃
    { c // classOf c = k0 } × { c // classOf c = k1 } × { c // classOf c = k2 } × { c // classOf c = k3 } where
  toFun g :=
    let h := shapeOf_eq_iff.mp g.2
    (⟨g.1.s0, h.1⟩, ⟨g.1.s1, h.2.1⟩, ⟨g.1.s2, h.2.2.1⟩, ⟨g.1.s3, h.2.2.2⟩)
  invFun s := ⟨⟨s.1, s.2.1, s.2.2.1, s.2.2.2⟩, shapeOf_eq_iff.mpr ⟨s.1.2, s.2.1.2, s.2.2.1.2, s.2.2.2.2⟩⟩

theorem card_shape (k0 k1 k2 k3 : SymbolClass) :
    Nat.card { g : Group // shapeOf g.s0 g.s1 g.s2 g.s3 = [k0, k1, k2, k3] } =
      Nat.card { c // classOf c = k0 } * (Nat.card { c // classOf c = k1 } *
        (Nat.card { c // classOf c = k2 } * Nat.card { c // classOf c = k3 })) := by
  rw [Nat.card_congr (shapeEquiv k0 k1 k2 k3), Nat.card_prod, Nat.card_prod, Nat.card_prod]

theorem card_shape_DDDD :
    Nat.card { g : Group // shapeOf g.s0 g.s1 g.s2 g.s3 = [.data, .data, .data, .data] } = 16777216 := by
  rw [card_shape, card_class_data]

theorem card_shape_DDDP :
    Nat.card { g : Group // shapeOf g.s0 g.s1 g.s2 g.s3 = [.data, .data, .data, .padding] } = 262144 := by
  rw [card_shape, card_class_data, card_class_padding]

theorem card_shape_DDPP :
    Nat.card { g : Group // shapeOf g.s0 g.s1 g.s2 g.s3 = [.data, .data, .padding, .padding] } = 4096 := by
  rw [card_shape, card_class_data, card_class_padding]

/-! ### Well-formed and malformed groups -/

/-- Predicates on groups that never hold together are counted by adding. -/
theorem card_or {p q : Group → Prop} (h : ∀ g, p g → ¬q g) :
    Nat.card { g // p g ∨ q g } = Nat.card { g // p g } + Nat.card { g // q g } := by
  classical
  have hfin := finite_group
  have hdisjoint : Disjoint p q := Pi.disjoint_iff.mpr fun g => Prop.disjoint_iff.mpr fun ⟨hp, hq⟩ => h g hp hq
  rw [Nat.card_congr (subtypeOrEquiv p q hdisjoint), Nat.card_sum]

/-- The well-formed groups have one of the three legal shapes (R106). -/
theorem decoded_ne_malformed_iff (g : Group) : g.decoded ≠ .malformed ↔
    shapeOf g.s0 g.s1 g.s2 g.s3 = [.data, .data, .data, .data] ∨
    shapeOf g.s0 g.s1 g.s2 g.s3 = [.data, .data, .data, .padding] ∨
    shapeOf g.s0 g.s1 g.s2 g.s3 = [.data, .data, .padding, .padding] := by
  obtain ⟨-, -, -, -, -, hmalformed⟩ := wellFormedShapesAreExactlyThree g.s0 g.s1 g.s2 g.s3
  rw [Ne, Group.decoded, hmalformed]
  tauto

theorem card_wellFormed : Nat.card { g : Group // g.decoded ≠ .malformed } = 17043456 := by
  rw [Nat.card_congr (Equiv.subtypeEquivRight decoded_ne_malformed_iff), card_or, card_or, card_shape_DDDD,
    card_shape_DDDP, card_shape_DDPP]
  · intro g h; simp [h]
  · intro g h; simp [h]

/-- Every group is well formed or malformed. -/
theorem card_malformed : Nat.card { g : Group // g.decoded = .malformed } = 4277923840 := by
  have hfin := finite_group
  have hsum := Nat.card_congr (Equiv.sumCompl fun g : Group => g.decoded = .malformed)
  rw [Nat.card_sum, card_wellFormed, card_group] at hsum
  exact Nat.eq_sub_of_add_eq hsum

/-! ### Groups of a chunk -/

theorem append_injective {m n : Nat} (a : BitVec m) : Function.Injective fun b : BitVec n => a ++ b :=
  fun _ _ => (BitVec.append_right_inj a).mp

theorem encodeTwoWith_injective (x y : Byte) : Function.Injective (encodeTwoWith x y) := fun _ _ h =>
  append_injective _ (dataSymbol_injective (congrArg Group.s2 h))

theorem encodeOneWith_injective (x : Byte) : Function.Injective (encodeOneWith x) := fun _ _ h =>
  append_injective _ (dataSymbol_injective (congrArg Group.s1 h))

theorem card_one_byte (x : Byte) : Nat.card { g : Group // g.decoded = .ok 1 x 0 0 } = 16 :=
  (card_of_range (encodeOneWith_injective x) fun _ => decoded_eq_one_iff).trans (card_bitVec 4)

theorem card_two_bytes (x y : Byte) : Nat.card { g : Group // g.decoded = .ok 2 x y 0 } = 4 :=
  (card_of_range (encodeTwoWith_injective x y) fun _ => decoded_eq_two_iff).trans (card_bitVec 2)

theorem card_three_bytes (x y z : Byte) : Nat.card { g : Group // g.decoded = .ok 3 x y z } = 1 := by
  rw [Nat.card_congr (Equiv.subtypeEquivRight fun _ => decoded_eq_three_iff), Nat.card_unique]

end Sys2Proof.Machine
end

section
/-! The counts of R121. -/

open Sys2Proof Sys2Proof.Machine

/-- Settles O26: shapes are counted class by class, and chunks by the bits that decoding drops. -/
theorem groupCountsByShapeAndChunk : Obligations.GroupCountsByShapeAndChunk :=
  ⟨card_shape_DDDD, card_shape_DDDP, card_shape_DDPP, card_wellFormed, card_malformed, card_one_byte, card_two_bytes,
    card_three_bytes⟩
end

section
/-! Edges by the word at the head of the input list (R133), and runs of edges: the cycles of command words, of which
only those after a `DECODE` edge carry a chunk or an error (R136). -/

namespace Sys2Proof.Machine

/-! ### One edge on a presented command word -/

/-- The block executes the row its input decodes to. -/
theorem stepOn_of_decode {w : InputWord} {i : Instr} (h : decode w = .ok i) (s : State) : stepOn w s = exec i s := by
  rw [stepOn, h]

/-- An edge uses its command word up and is counted. -/
theorem advance_of_cmd_cons {e : Environment} {cw : CommandWord} {rest : List InputWord}
    (h : e.inputs = .cmd cw :: rest) : e.advance = { inputs := rest, edge := e.edge + 1 } := by
  simp [Environment.advance, Environment.driven, h]

theorem step_of_cmd_cons {s : State} {cw : CommandWord} {rest : List InputWord} (h : s.env.inputs = .cmd cw :: rest) :
    step s = .next { regs := nextRegisters (.ofWord cw), env := { inputs := rest, edge := s.env.edge + 1 } } := by
  rw [step_of_cmd (nextInput_of_cons s _ rest h), advance_of_cmd_cons h]

theorem selectsDecode_ofWord_commandWord (rst start : Bool) (g : GroupWord) :
    (InputPorts.ofWord (commandWord rst start g)).selectsDecode ↔ rst = false ∧ start = true := by
  simp [InputPorts.selectsDecode, InputPorts.ofWord]

/-- A `RESET` or an `IDLE` edge clears the registers, whatever is on the symbol ports (R130, R131). -/
theorem step_of_not_decode_cons {s : State} {rst start : Bool} {g : GroupWord} {rest : List InputWord}
    (hsel : ¬(rst = false ∧ start = true)) (h : s.env.inputs = .cmd (commandWord rst start g) :: rest) :
    step s = .next { regs := Registers.zero, env := { inputs := rest, edge := s.env.edge + 1 } } := by
  rw [step_of_cmd_cons h,
    nextRegisters_of_not_selectsDecode (mt (selectsDecode_ofWord_commandWord rst start g).mp hsel)]

/-! ### What a result adds to the stream and to the error count -/

theorem chunk_registers_malformed : GroupResult.malformed.registers.chunk = [] := chunk_of_not_valid rfl

theorem malformed_registers (d : GroupResult) : d.registers.malformed = (d == .malformed) := by
  cases d <;> rfl

theorem errorCount_groups (gs : List Group) :
    errorCount (gs.map fun g => g.decoded.registers) = gs.countP fun g => g.decoded == .malformed := by
  rw [errorCount, List.countP_map]
  exact List.countP_congr fun g _ => by rw [Function.comp_apply, malformed_registers]

theorem decodedStream_map {α : Type} (f : α → Registers) (as : List α) :
    decodedStream (as.map f) = (as.map fun a => (f a).chunk).flatten := by
  rw [decodedStream, List.flatMap_map, List.flatMap_def]

/-! ### Cycles that hold the record `ZERO` -/

theorem chunk_zero : Registers.zero.chunk = [] := chunk_of_not_valid rfl

/-- Cycles at `ZERO` can be left out of a stream. -/
theorem decodedStream_map_filter {α : Type} {f : α → Registers} {p : α → Bool}
    (hzero : ∀ a, ¬p a = true → f a = Registers.zero) (as : List α) :
    decodedStream ((as.filter p).map f) = decodedStream (as.map f) := by
  induction as with
  | nil => rfl
  | cons a as ih =>
    rw [List.map_cons, decodedStream_cons]
    by_cases h : p a = true
    · rw [List.filter_cons_of_pos h, List.map_cons, decodedStream_cons, ih]
    · rw [List.filter_cons_of_neg h, hzero a h, chunk_zero, List.nil_append, ih]

/-- Cycles at `ZERO` can be left out of an error count. -/
theorem errorCount_map_filter {α : Type} {f : α → Registers} {p : α → Bool}
    (hzero : ∀ a, ¬p a = true → f a = Registers.zero) (as : List α) :
    errorCount ((as.filter p).map f) = errorCount (as.map f) := by
  rw [errorCount, errorCount, List.countP_map, List.countP_map, List.countP_filter]
  refine List.countP_congr fun a _ => ?_
  by_cases h : p a = true
  · simp [h]
  · simp [h, hzero a h, Registers.zero]

/-! ### A run over command words -/

/-- S_after(k) = Next(inputs(k)), with the inputs given as words. -/
theorem runOn_cmds (s : State) (cws : List CommandWord) :
    runOn s (cws.map .cmd) = cws.map fun cw => nextRegisters (.ofWord cw) := by
  simpa [Function.comp_def, toWord_ofWord] using runOfEdgesIsNextOfEachEdgesPorts s (cws.map .ofWord)

/-- A word that does not select `DECODE` leaves the record `ZERO` (R130, R131). -/
theorem nextRegisters_of_not_decode_word {cw : CommandWord} (h : ¬(!cw[33] && cw[32]) = true) :
    nextRegisters (.ofWord cw) = Registers.zero := by
  refine nextRegisters_of_not_selectsDecode ((not_selectsDecode_ofWord cw).mpr ?_)
  simpa [or_iff_not_imp_left] using h

end Sys2Proof.Machine
end

section
/-! The statements about the operations (42_operations.md). -/

open Sys2Proof Sys2Proof.Machine

/-- Settles O31: the word at the head of the inputs is sampled, and `Next` is taken case by case. -/
theorem stepAppliesNextToTheSampledInputs : Obligations.StepAppliesNextToTheSampledInputs := by
  refine ⟨fun s p rest h => ?_, fun start s0 s1 s2 s3 => ?_, fun s0 s1 s2 s3 => ?_, fun s0 s1 s2 s3 =>
    ⟨fun n b0 b1 b2 h => ?_, fun h => ?_⟩⟩
  · rw [step_of_cmd_cons h, ofWord_toWord]
  · exact nextRegisters_of_not_selectsDecode fun ⟨hrst, _⟩ => Bool.noConfusion hrst
  · exact nextRegisters_of_not_selectsDecode fun ⟨_, hstart⟩ => Bool.noConfusion hstart
  · rw [nextRegisters_of_selectsDecode ⟨rfl, rfl⟩, h, registers_ok]
  · rw [nextRegisters_of_selectsDecode ⟨rfl, rfl⟩, h, registers_malformed]

/-- Settles O49: the cycles hold the results of the groups, each with its chunk or its error. -/
theorem runOfGroupsReportsEachGroup : Obligations.RunOfGroupsReportsEachGroup := by
  intro s gs
  simp only [runOn_groups]
  refine ⟨List.length_map _, ?_, errorCount_groups gs⟩
  rw [decodedStream_map]
  refine congrArg List.flatten (List.map_congr_left fun g _ => ?_)
  cases g.decoded with
  | ok n b0 b1 b2 => exact chunk_registers_ok n b0 b1 b2
  | malformed => exact chunk_registers_malformed

/-- Settles O51: the cycles of the words left out hold `ZERO`, and the other cycles do not depend on them. -/
theorem idleAndResetEdgesAddNothingToTheStream : Obligations.IdleAndResetEdgesAddNothingToTheStream := by
  intro s cws
  simp only [runOn_cmds]
  exact ⟨(decodedStream_map_filter (fun _ => nextRegisters_of_not_decode_word) cws).symm,
    (errorCount_map_filter (fun _ => nextRegisters_of_not_decode_word) cws).symm⟩

/-- Settles O22: the result, as registers, is what the row writes. -/
theorem decodeWritesTheResultOfTheGroup : Obligations.DecodeWritesTheResultOfTheGroup := by
  refine fun s s0 s1 s2 s3 => ⟨fun n b0 b1 b2 h => ?_, fun h => ?_⟩
  · rw [exec_decode, h, registers_ok]
    rfl
  · rw [exec_decode, h, registers_malformed]
    rfl

/-- Settles O29: an edge with `rst` = 1 is no `DECODE`. -/
theorem resetEdgeClearsEveryRegister : Obligations.ResetEdgeClearsEveryRegister :=
  fun s => ⟨exec_reset s, fun _ _ _ => step_of_not_decode_cons fun ⟨hrst, _⟩ => Bool.noConfusion hrst⟩

/-- Settles O30: an edge with `start` = 0 is no `DECODE`, and both rows write the record `ZERO`. -/
theorem idleEdgeClearsEveryRegister : Obligations.IdleEdgeClearsEveryRegister :=
  fun s => ⟨exec_idle s, (exec_idle s).trans (exec_reset s).symm,
    fun _ _ => step_of_not_decode_cons fun ⟨_, hstart⟩ => Bool.noConfusion hstart⟩

/-- Settles O32: the block executes the decoded row on the state past the input. -/
theorem stepRunsTheDecodedRow : Obligations.StepRunsTheDecodedRow :=
  fun s _ h => ⟨stepOn_of_decode h s.takeInput, takeInput_regs s, takeInput_inputs s, takeInput_edge_of_cmd s,
    takeInput_edge_of_sym s⟩
end

section
/-! A group of no legal shape (R146), and the cycle that each input of a run starts, whatever instance runs it (R152). -/

namespace Sys2Proof.Machine

/-- A group whose shape is none of the three legal ones is malformed (R106). -/
theorem decodeGroup_of_illegal_shape {s0 s1 s2 s3 : Byte}
    (h : shapeOf s0 s1 s2 s3 ∉ ([[.data, .data, .data, .data], [.data, .data, .data, .padding],
      [.data, .data, .padding, .padding]] : List (List SymbolClass))) : decodeGroup s0 s1 s2 s3 = .malformed := by
  simp only [List.mem_cons, List.not_mem_nil, or_false] at h
  exact of_not_not (mt (decoded_ne_malformed_iff ⟨s0, s1, s2, s3⟩).mp h)

/-! ### Runs of any inputs -/

/-- The registers in the cycle that an input starts: a command word is an edge, and a lone symbol starts no cycle. -/
def cycleOf : InputWord → Option Registers
  | .cmd cw => some (nextRegisters (.ofWord cw))
  | .sym _ => none

/-- A run whose first input is a lone symbol: the symbol is used up and nothing else happens. -/
theorem runOn_cons_sym (s : State) (code : Byte) (ws : List InputWord) : runOn s (.sym code :: ws) = runOn s ws := by
  simp only [runOn, List.length_cons, cycles, step_of_sym (nextInput_present_cons s (.sym code) ws)]
  rfl

/-- The cycles of a run come from its inputs one by one: the state it starts in is in none of them (R28). -/
theorem runOn_eq_filterMap (s : State) (ws : List InputWord) : runOn s ws = ws.filterMap cycleOf := by
  induction ws generalizing s with
  | nil => exact runOn_nil s
  | cons w ws ih =>
    cases w with
    | cmd cw => rw [runOn_cons_cmd, ih, List.filterMap_cons_some (f := cycleOf) rfl]
    | sym code => rw [runOn_cons_sym, ih, List.filterMap_cons_none (f := cycleOf) rfl]

/-- A run over two lists of inputs is a run over the first and a run over the second, from any states. -/
theorem runOn_append (s t u : State) (ws vs : List InputWord) : runOn s (ws ++ vs) = runOn t ws ++ runOn u vs := by
  rw [runOn_eq_filterMap s, runOn_eq_filterMap t, runOn_eq_filterMap u, List.filterMap_append]

theorem decodedStream_append (rs qs : List Registers) :
    decodedStream (rs ++ qs) = decodedStream rs ++ decodedStream qs := List.flatMap_append

theorem errorCount_append (rs qs : List Registers) : errorCount (rs ++ qs) = errorCount rs + errorCount qs :=
  List.countP_append

end Sys2Proof.Machine
end

section
/-! The statements about malformed groups and about several instances (60_exceptions.md). -/

open Sys2Proof Sys2Proof.Machine

/-- Settles O23: the group is malformed, and `decodeWritesTheResultOfTheGroup` says what the row then writes. -/
theorem malformedGroupWritesOnlyTheFlag : Obligations.MalformedGroupWritesOnlyTheFlag := by
  intro s s0 s1 s2 s3 hshape
  obtain ⟨-, hmalformed⟩ := decodeWritesTheResultOfTheGroup s s0 s1 s2 s3
  exact ⟨_, hmalformed (decodeGroup_of_illegal_shape hshape), rfl, rfl, chunk_of_not_valid rfl⟩

/-- Settles O50: the cycles split with the inputs, and the stream and the error count split with the cycles. -/
theorem splitRunsOnTwoInstancesGiveTheSameStream : Obligations.SplitRunsOnTwoInstancesGiveTheSameStream := by
  intro s t u ws vs
  rw [runOn_append s t u, decodedStream_append, errorCount_append]
  exact ⟨rfl, rfl, rfl⟩
end

section
/-! The statement about reset and hazards (70_reset_and_hazards.md). -/

open Sys2Proof Sys2Proof.Machine

/-- Settles O38, by the two kinds of input: an edge answers with `Next` of its ports in the registers, and a lone
symbol with the state past it. An environment that presents nothing drives a free word, which is an edge too. -/
theorem everyStepAnswersANextState : Obligations.EveryStepAnswersANextState := by
  intro s
  cases h : s.nextInput with
  | cmd cw => exact ⟨_, step_of_cmd h⟩
  | sym code => exact ⟨_, step_of_sym h⟩
end
